-- ==== Sys2Proof/Word.lean ====
section
/-! DEFINITION. The widths of TSM's values (`00_scope.md` R5: `XLEN` = 32, `TCR_W` = `CNT_W` = 16). -/

namespace Sys2Proof

/-- A 32-bit value: an address, an argument or result register, a memory word (R5, `XLEN`). -/
abbrev Word := BitVec 32

/-- A 16-bit value: a TCR (R15) or a ring count (R23, `CNT_W`). -/
abbrev Half := BitVec 16

/-- An 8-bit value: a byte of memory, `SZ[k]` (R19), `PRIO[i]` (R20). -/
abbrev Byte := BitVec 8

end Sys2Proof
end

