-- ==== Sys2Proof/Syntax.lean ====
section
/-! DEFINITION. The 24 commands of `30_encoding.md` R65, one constructor per row of
`spec/opcode_table.json`. Numbers (task numbers, source numbers, indices) are `Nat`, the signed policy
is `Int` (R63), fields copied into a register are bit vectors. -/

namespace Sys2Proof

/-- A command with its operands as R62 and R70 name them. -/
inductive Instr where
  /-- `APIINIT vm` (R80). -/
  | apiinit (vm : Bool)
  /-- `TSTART t, ase, ast, ie` (R82). -/
  | tstart (t : Nat) (ase : Bool) (ast : Nat) (ie : Bool)
  /-- `TSTOP t` (R85). -/
  | tstop (t : Nat)
  /-- `TSTAT t` (R87). -/
  | tstat (t : Nat)
  /-- `BDSETUP t, numPtr, apiConfig` (R100). -/
  | bdsetup (t : Nat) (numPtr : BitVec 2) (apiConfig : Byte)
  /-- `BDASSIGN t` (R107). -/
  | bdassign (t : Nat)
  /-- `BDRELEASE t` (R111). -/
  | bdrelease (t : Nat)
  /-- `BDRESET t` (R115). -/
  | bdreset (t : Nat)
  /-- `BDGET t, idx` (R118). -/
  | bdget (t : Nat) (idx : Nat)
  /-- `BDRING t` (R119). -/
  | bdring (t : Nat)
  /-- `BDINUSE t` (R120). -/
  | bdinuse (t : Nat)
  /-- `TCFG g, policy`: `g` is the global task number, `policy` is signed (R130). -/
  | tcfg (g : Nat) (policy : Int)
  /-- `TSETI t, init, hold` (R137). -/
  | tseti (t : Nat) (init : BitVec 5) (hold : Bool)
  /-- `DRDPATCH init` (R140). -/
  | drdpatch (init : BitVec 5)
  /-- `SZSET t, src, dst` (R145). -/
  | szset (t : Nat) (src : BitVec 2) (dst : BitVec 2)
  /-- `TINTCLR i` (R160). -/
  | tintclr (i : Nat)
  /-- `TINTSTAT i` (R162). -/
  | tintstat (i : Nat)
  /-- `TINTPEND i` (R163). -/
  | tintpend (i : Nat)
  /-- `TINTSRC` (R164). -/
  | tintsrc
  /-- `GINIT` (R170). -/
  | ginit
  /-- `GIRQEN i` (R172). -/
  | girqen (i : Nat)
  /-- `GIRQDIS i` (R173). -/
  | girqdis (i : Nat)
  /-- `GINSTALL i` (R174). -/
  | ginstall (i : Nat)
  /-- `GHDONE` (R176). -/
  | ghdone
  deriving DecidableEq, Repr

end Sys2Proof
end

