-- ==== Sys2Proof/WellFormed.lean ====
section
/-! DEFINITION. Which operands the command word can spell (`30_encoding.md` R62, R63). The bit-vector
operands have exactly their field's width; the numbers are checked here. -/

namespace Sys2Proof

/-- The operands of `i` fit the fields of its format: `TID` and `ast` 8 bits, `idx` 16 bits, `policy`
16 bits signed. -/
def Instr.wellFormed : Instr → Bool
  | .apiinit _ => true
  | .tstart t _ ast _ => decide (t < 2 ^ 8) && decide (ast < 2 ^ 8)
  | .tstop t => decide (t < 2 ^ 8)
  | .tstat t => decide (t < 2 ^ 8)
  | .bdsetup t _ _ => decide (t < 2 ^ 8)
  | .bdassign t => decide (t < 2 ^ 8)
  | .bdrelease t => decide (t < 2 ^ 8)
  | .bdreset t => decide (t < 2 ^ 8)
  | .bdget t idx => decide (t < 2 ^ 8) && decide (idx < 2 ^ 16)
  | .bdring t => decide (t < 2 ^ 8)
  | .bdinuse t => decide (t < 2 ^ 8)
  | .tcfg g policy => decide (g < 2 ^ 8) && decide (-2 ^ 15 ≤ policy) && decide (policy < 2 ^ 15)
  | .tseti t _ _ => decide (t < 2 ^ 8)
  | .drdpatch _ => true
  | .szset t _ _ => decide (t < 2 ^ 8)
  | .tintclr i => decide (i < 2 ^ 8)
  | .tintstat i => decide (i < 2 ^ 8)
  | .tintpend i => decide (i < 2 ^ 8)
  | .tintsrc => true
  | .ginit => true
  | .girqen i => decide (i < 2 ^ 8)
  | .girqdis i => decide (i < 2 ^ 8)
  | .ginstall i => decide (i < 2 ^ 8)
  | .ghdone => true

end Sys2Proof
end

