-- ==== Sys2Proof/Decode.lean ====
section
/-! DEFINITION. The command word of `30_encoding.md`: decoder (R61 to R67) and encoder (R62). -/

namespace Sys2Proof

/-- The ten formats of R62. -/
inductive Format where
  | n | v | t | s | b | x | p | i | d | z
  deriving DecidableEq, Repr

/-- The 24 opcodes of R65, by mnemonic. -/
inductive Op where
  | apiinit | tstart | tstop | tstat
  | bdsetup | bdassign | bdrelease | bdreset | bdget | bdring | bdinuse
  | tcfg | tseti | drdpatch | szset
  | tintclr | tintstat | tintpend | tintsrc
  | ginit | girqen | girqdis | ginstall | ghdone
  deriving DecidableEq, Repr

/-- Why a word spells no command (R67); either way the port answers `INVALID_ARG`. -/
inductive DecodeError where
  /-- `OP` is not one of the 24 values of R65. -/
  | illegalOpcode (op : Byte)
  /-- `OP` is one of them and a must-be-zero bit of its format is 1. -/
  | reservedBits (op : Op)
  deriving DecidableEq, Repr

/-- Field `OP` = bits 31:24 (R61). -/
def opField (w : Word) : Byte := w.extractLsb' 24 8

/-- Field `TID` = bits 23:16, unsigned (R61, R63). -/
def tidField (w : Word) : Nat := (w.extractLsb' 16 8).toNat

/-- Field `IMM` = bits 15:0 (R61). -/
def immField (w : Word) : Half := w.extractLsb' 0 16

/-- The `OP` column of R65. -/
def opCode : Op → Byte
  | .apiinit => 0x01#8
  | .tstart => 0x10#8
  | .tstop => 0x11#8
  | .tstat => 0x12#8
  | .bdsetup => 0x20#8
  | .bdassign => 0x21#8
  | .bdrelease => 0x22#8
  | .bdreset => 0x23#8
  | .bdget => 0x24#8
  | .bdring => 0x25#8
  | .bdinuse => 0x26#8
  | .tcfg => 0x30#8
  | .tseti => 0x31#8
  | .drdpatch => 0x32#8
  | .szset => 0x33#8
  | .tintclr => 0x40#8
  | .tintstat => 0x41#8
  | .tintpend => 0x42#8
  | .tintsrc => 0x43#8
  | .ginit => 0x50#8
  | .girqen => 0x51#8
  | .girqdis => 0x52#8
  | .ginstall => 0x53#8
  | .ghdone => 0x54#8

/-- The `format` column of R65. -/
def opFormat : Op → Format
  | .apiinit => .v
  | .tstart => .s
  | .tstop => .t
  | .tstat => .t
  | .bdsetup => .b
  | .bdassign => .t
  | .bdrelease => .t
  | .bdreset => .t
  | .bdget => .x
  | .bdring => .t
  | .bdinuse => .t
  | .tcfg => .p
  | .tseti => .i
  | .drdpatch => .d
  | .szset => .z
  | .tintclr => .t
  | .tintstat => .t
  | .tintpend => .t
  | .tintsrc => .n
  | .ginit => .n
  | .girqen => .t
  | .girqdis => .t
  | .ginstall => .t
  | .ghdone => .n

/-- The must-be-zero bits of a format (R62, columns `TID` and `IMM`). -/
def mbzBits : Format → Word
  | .n => 0x00FFFFFF#32
  | .v => 0x00FFFFFE#32
  | .t => 0x0000FFFF#32
  | .s => 0x000000FC#32
  | .b => 0x000000FC#32
  | .x => 0x00000000#32
  | .p => 0x00000000#32
  | .i => 0x0000E0FE#32
  | .d => 0x00FFFFE0#32
  | .z => 0x0000FFF0#32

/-- The opcodes in the order of R65. -/
def opList : List Op :=
  [.apiinit, .tstart, .tstop, .tstat, .bdsetup, .bdassign, .bdrelease, .bdreset, .bdget, .bdring,
   .bdinuse, .tcfg, .tseti, .drdpatch, .szset, .tintclr, .tintstat, .tintpend, .tintsrc, .ginit,
   .girqen, .girqdis, .ginstall, .ghdone]

/-- The row of R65 whose `OP` is `b`, if there is one. -/
def opOfByte (b : Byte) : Option Op := opList.find? fun o => opCode o == b

/-- The operands of the command `o` in the word `w` (R62, R63): every field unsigned but `policy`. -/
def operands (o : Op) (w : Word) : Instr :=
  let tid := tidField w
  match o with
  | .apiinit => .apiinit (w.getLsbD 0)
  | .tstart => .tstart tid (w.getLsbD 1) (w.extractLsb' 8 8).toNat (w.getLsbD 0)
  | .tstop => .tstop tid
  | .tstat => .tstat tid
  | .bdsetup => .bdsetup tid (w.extractLsb' 0 2) (w.extractLsb' 8 8)
  | .bdassign => .bdassign tid
  | .bdrelease => .bdrelease tid
  | .bdreset => .bdreset tid
  | .bdget => .bdget tid (immField w).toNat
  | .bdring => .bdring tid
  | .bdinuse => .bdinuse tid
  | .tcfg => .tcfg tid (immField w).toInt
  | .tseti => .tseti tid (w.extractLsb' 8 5) (w.getLsbD 0)
  | .drdpatch => .drdpatch (w.extractLsb' 0 5)
  | .szset => .szset tid (w.extractLsb' 2 2) (w.extractLsb' 0 2)
  | .tintclr => .tintclr tid
  | .tintstat => .tintstat tid
  | .tintpend => .tintpend tid
  | .tintsrc => .tintsrc
  | .ginit => .ginit
  | .girqen => .girqen tid
  | .girqdis => .girqdis tid
  | .ginstall => .ginstall tid
  | .ghdone => .ghdone

/-- The total decoder of R67: every 32-bit word is one command of R65 or is refused by name. -/
def decode (w : Word) : Except DecodeError Instr :=
  match opOfByte (opField w) with
  | none => .error (.illegalOpcode (opField w))
  | some o => if w &&& mbzBits (opFormat o) = 0#32 then .ok (operands o w) else .error (.reservedBits o)

/-! ## The encoder -/

/-- The opcode of a command (R65). -/
def instrOp : Instr → Op
  | .apiinit _ => .apiinit
  | .tstart _ _ _ _ => .tstart
  | .tstop _ => .tstop
  | .tstat _ => .tstat
  | .bdsetup _ _ _ => .bdsetup
  | .bdassign _ => .bdassign
  | .bdrelease _ => .bdrelease
  | .bdreset _ => .bdreset
  | .bdget _ _ => .bdget
  | .bdring _ => .bdring
  | .bdinuse _ => .bdinuse
  | .tcfg _ _ => .tcfg
  | .tseti _ _ _ => .tseti
  | .drdpatch _ => .drdpatch
  | .szset _ _ _ => .szset
  | .tintclr _ => .tintclr
  | .tintstat _ => .tintstat
  | .tintpend _ => .tintpend
  | .tintsrc => .tintsrc
  | .ginit => .ginit
  | .girqen _ => .girqen
  | .girqdis _ => .girqdis
  | .ginstall _ => .ginstall
  | .ghdone => .ghdone

/-- The number that goes into `TID` (R62; 0 where the format says must be zero). -/
def instrTid : Instr → Nat
  | .apiinit _ => 0
  | .tstart t _ _ _ => t
  | .tstop t => t
  | .tstat t => t
  | .bdsetup t _ _ => t
  | .bdassign t => t
  | .bdrelease t => t
  | .bdreset t => t
  | .bdget t _ => t
  | .bdring t => t
  | .bdinuse t => t
  | .tcfg g _ => g
  | .tseti t _ _ => t
  | .drdpatch _ => 0
  | .szset t _ _ => t
  | .tintclr i => i
  | .tintstat i => i
  | .tintpend i => i
  | .tintsrc => 0
  | .ginit => 0
  | .girqen i => i
  | .girqdis i => i
  | .ginstall i => i
  | .ghdone => 0

/-- The sixteen bits of `IMM` (R62). -/
def instrImm : Instr → Half
  | .apiinit vm => 0#15 ++ BitVec.ofBool vm
  | .tstart _ ase ast ie => BitVec.ofNat 8 ast ++ 0#6 ++ BitVec.ofBool ase ++ BitVec.ofBool ie
  | .tstop _ => 0#16
  | .tstat _ => 0#16
  | .bdsetup _ np cfg => cfg ++ 0#6 ++ np
  | .bdassign _ => 0#16
  | .bdrelease _ => 0#16
  | .bdreset _ => 0#16
  | .bdget _ idx => BitVec.ofNat 16 idx
  | .bdring _ => 0#16
  | .bdinuse _ => 0#16
  | .tcfg _ p => BitVec.ofInt 16 p
  | .tseti _ init hold => 0#3 ++ init ++ 0#7 ++ BitVec.ofBool hold
  | .drdpatch init => 0#11 ++ init
  | .szset _ src dst => 0#12 ++ src ++ dst
  | .tintclr _ => 0#16
  | .tintstat _ => 0#16
  | .tintpend _ => 0#16
  | .tintsrc => 0#16
  | .ginit => 0#16
  | .girqen _ => 0#16
  | .girqdis _ => 0#16
  | .ginstall _ => 0#16
  | .ghdone => 0#16

/-- The command word of a command: `OP ++ TID ++ IMM` (R61). -/
def encode (i : Instr) : Word :=
  opCode (instrOp i) ++ BitVec.ofNat 8 (instrTid i) ++ instrImm i

/-- The command the decoder reads from a table row's bits (every row has 32). -/
def decodeTableWord (nbits w : Nat) : Option Instr :=
  if nbits ≤ 32 ∧ w < 2 ^ 32 then (decode (BitVec.ofNat 32 w)).toOption else none

end Sys2Proof
end

