-- ==== Sys2Proof/Config.lean ====
section
/-! DEFINITION. What an implementation fixes (`00_scope.md` R5) and the one free value of the model. -/

namespace Sys2Proof

/-- The open parameters of `00_scope.md` R5, fixed for a run. They are plain data inside State, so that
one statement covers every choice of them (log 11). -/
structure Config where
  /-- `RING_MEM_BASE`: the first byte of the region the ring allocator hands out (R48). -/
  ringMemBase : Word
  /-- `RING_MEM_SIZE`: the size in bytes of that region (R48). -/
  ringMemSize : Word
  /-- `START_ALWAYS_WRITES_AS`: the other reading of TSTART's "if requested" (R83 a). -/
  startAlwaysWritesAs : Bool
  /-- `PRAGMA_BITS`: the position of each of the six pragma flags in the pragma byte, in the order of
  R149; read by the host side only. -/
  pragmaBits : Vector (Fin 8) 6
  deriving DecidableEq, Repr

/-- What R48 and R123 ask of the parameters: the base is a nonzero multiple of 4 and the region ends
below 2^32. The end is strict, so that `ALLOC_PTR` can hold it (R124 b; DEDUCED, log 12). -/
abbrev Config.wf (c : Config) : Prop :=
  c.ringMemBase ≠ 0#32 ∧ c.ringMemBase.toNat % 4 = 0 ∧
    c.ringMemBase.toNat + c.ringMemSize.toNat < 2 ^ 32

/-- The parameters `95_test_vectors.md` takes for its vectors (DESIGN CHOICE, log 11). -/
def Config.vectors : Config where
  ringMemBase := 0xF0008000#32
  ringMemSize := 0x4000#32
  startAlwaysWritesAs := false
  pragmaBits := ⟨#[0, 1, 2, 3, 4, 5], rfl⟩

/-- FREE VALUE (log 10): the byte at an address that nothing has written. R42: it is "an unspecified
value", never assumed zero. -/
opaque Config.unwrittenByte : Nat → Byte

end Sys2Proof
end

