-- ==== Sys2Proof/Machine/State.lean ====
section
/-! DEFINITION. Everything the spec gives TSM to hold (`10_state.md`), as plain data, and its reset. -/

namespace Sys2Proof.Machine

/-- A task handle, 0 to 15 (`00_scope.md` R5, `MAX_TASKS`). -/
abbrev TaskId := Fin 16

/-- One entry of the BD ring table (R23). -/
structure RingEntry where
  /-- Logical address of the ring storage; 0 means no ring allocated. -/
  base : Word
  /-- Live ring length. -/
  numBD : Half
  /-- Capacity the storage was allocated for (`90_conflicts.md` C8). -/
  capBD : Half
  /-- Data pointers per BD, 1 or 2 once allocated. -/
  numPtr : BitVec 2
  /-- Opaque flags stored at the first setup. -/
  apiConfig : Byte
  /-- Logical address of the start slot, recorded at the first setup. -/
  startReg : Word
  /-- BDs assigned and not yet released. -/
  inUse : Half
  /-- Write cursor. -/
  wr : Half
  /-- Read cursor. -/
  rd : Half
  deriving DecidableEq, Repr

/-- One slot of the interrupt handler table (R25); `fn` = 0 means no handler. -/
structure Handler where
  fn : Word
  param : Word
  deriving DecidableEq, Repr

/-- The observable event `Dispatch(i, fn, param)` (`60_exceptions.md` R201). -/
structure Dispatch where
  id : BitVec 5
  fn : Word
  param : Word
  deriving DecidableEq, Repr

/-- The closed list of the engine's moves (`40_task_control.md` R90 to R95, R98). -/
inductive EngineEvent where
  /-- `E_INT(t)` (R90). -/
  | int (t : TaskId)
  /-- `E_DONE(t)` (R91). -/
  | done (t : TaskId)
  /-- `E_SELFDIS(t)` (R92). -/
  | selfDis (t : TaskId)
  /-- `E_BDDONE(t, s)` (R93). -/
  | bdDone (t : TaskId) (status : Word)
  /-- `E_TEA(t)` (R94). -/
  | tea (t : TaskId)
  /-- `E_DBG` (R95). -/
  | dbg
  deriving DecidableEq, Repr

/-- One move of one agent; each is one atomic step (`00_scope.md` R8, `20_memory.md` R53). -/
inductive Input where
  /-- The host writes argument register `An` (R10; `LA n, v` of R70). -/
  | arg (n : Fin 6) (v : Word)
  /-- The host writes a command word to `CMD` (R60). -/
  | cmd (w : Word)
  /-- The engine makes one move. -/
  | engine (e : EngineEvent)
  /-- The demultiplexer makes one step, fire or scan (`60_exceptions.md` R198, R199). -/
  | demux
  /-- The reset input is asserted (`70_reset_and_hazards.md` R210). -/
  | reset
  /-- The environment stores a 32-bit word (R40; `42_tcr_config.md` section 5). -/
  | storeWord (a : Word) (v : Word)
  /-- The environment stores one byte (the pragma byte of R149). -/
  | storeByte (a : Word) (b : Byte)
  /-- The host writes `PRIO[i]` directly (`70_reset_and_hazards.md` R211, R213 step 3): a move of its
  own, since a store at a register-map address has no behaviour (`20_memory.md` R47; log 8). -/
  | prio (i : Fin 32) (b : Byte)
  deriving DecidableEq, Repr

/-- Memory: the bytes something has written, in strictly rising address order (R40). -/
abbrev Memory := List Host.Cell

/-- The state of the machine: `10_state.md` sections 1 to 7, the parameters, and the model's own
fields `inputs`, `argWritten`, `dispatchLog`. -/
structure State where
  /-- The parameters of R5, fixed for a run. -/
  cfg : Config
  /-- `A0`..`A5` (R10). -/
  args : Vector Word 6
  /-- The model's own: has the host written `An` since reset (R12, log 4). -/
  argWritten : Vector Bool 6
  /-- `RES` (R10). -/
  res : Word
  /-- `RET1` (R10). -/
  ret1 : Word
  /-- `CMD` (R10), log 5. -/
  cmd : Word
  /-- `API_INIT` (R14). -/
  apiInit : Bool
  /-- `GLUE_INIT` (R14). -/
  glueInit : Bool
  /-- `FATAL` (R14). -/
  fatal : Bool
  /-- `FATAL_REASON` (R14). -/
  fatalReason : BitVec 2
  /-- `TCR[0..15]` (R15). -/
  tcr : Vector Half 16
  /-- `IPR` (R17). -/
  ipr : Word
  /-- `IMR` (R18). -/
  imr : Word
  /-- `SZ[0..7]` (R19). -/
  sz : Vector Byte 8
  /-- `PRIO[0..31]` (R20). -/
  prio : Vector Byte 32
  /-- `MBAR` (R21). -/
  mbar : Word
  /-- `PHYS_OFFSET` (R21). -/
  physOffset : Word
  /-- `ALLOC_PTR` (R22). -/
  allocPtr : Word
  /-- `RT[0..15]` (R23). -/
  rt : Vector RingEntry 16
  /-- `HT[0..31]` (R25). -/
  ht : Vector Handler 32
  /-- `RUNFLAG[0..15]` (R26). -/
  runFlag : Vector Bool 16
  /-- `CFG[0..15]` (R26). -/
  configured : Vector Bool 16
  /-- `DMX_ACTIVE` (R28). -/
  dmxActive : Bool
  /-- `DMX_WAIT` (R28). -/
  dmxWait : Bool
  /-- `DMX_SNAP` (R28). -/
  dmxSnap : Word
  /-- `DMX_IDX` (R28), 0 to 32. -/
  dmxIdx : BitVec 6
  /-- `DSP_ID` (R28). -/
  dspId : BitVec 5
  /-- `DSP_FN` (R28). -/
  dspFn : Word
  /-- `DSP_PARAM` (R28). -/
  dspParam : Word
  /-- `ENG_CUR[0..15]` (R34), the engine's own. -/
  engCur : Vector Half 16
  /-- The shared memory (R31, R40). -/
  mem : Memory
  /-- The model's own: the moves still to come, oldest first (log 1). -/
  inputs : List Input
  /-- The model's own: the events emitted so far, oldest first (R201, log 17). -/
  dispatchLog : List Dispatch
  deriving DecidableEq, Repr

/-- A step's fault. No command ends in one. -/
inductive Fault where
  /-- Raised by an environment store (`Input.storeWord`, `Input.storeByte`) that reaches a register of
  the register block: R47, R227 and U9 give it no behaviour. `a` is the first byte stored that is a
  register's. Safe: the machine stops where the spec says nothing (log 15). -/
  | registerBlockWrite (a : Word)
  deriving DecidableEq, Repr

/-- A step's refusal. -/
inductive Refusal where
  /-- Raised by a dispatch arm with no meaning yet; no arm of this model raises it. Safe. -/
  | notModelled (mnemonic : String)
  deriving DecidableEq, Repr

/-- The empty ring entry of R23's reset column. -/
def RingEntry.unset : RingEntry where
  base := 0#32
  numBD := 0#16
  capBD := 0#16
  numPtr := 0#2
  apiConfig := 0#8
  startReg := 0#32
  inUse := 0#16
  wr := 0#16
  rd := 0#16

/-- No handler registered (R25). -/
def Handler.none : Handler where
  fn := 0#32
  param := 0#32

/-- Reset under the parameters `c`: the table of R32. Where it says "unspecified" the value is this
model's (DESIGN CHOICE, logs 4 to 9); memory lists nothing (log 10). -/
def State.resetWith (c : Config) : State where
  cfg := c
  args := Vector.replicate 6 0#32
  argWritten := Vector.replicate 6 false
  res := 0#32
  ret1 := 0#32
  cmd := 0#32
  apiInit := false
  glueInit := false
  fatal := false
  fatalReason := 0#2
  tcr := Vector.replicate 16 0#16
  ipr := 0#32
  imr := 0xFFFFFFFF#32
  sz := Vector.replicate 8 0#8
  prio := Vector.replicate 32 0#8
  mbar := 0#32
  physOffset := 0#32
  allocPtr := c.ringMemBase
  rt := Vector.replicate 16 RingEntry.unset
  ht := Vector.replicate 32 Handler.none
  runFlag := Vector.replicate 16 false
  configured := Vector.replicate 16 false
  dmxActive := false
  dmxWait := false
  dmxSnap := 0#32
  dmxIdx := 0#6
  dspId := 0#5
  dspFn := 0#32
  dspParam := 0#32
  engCur := Vector.replicate 16 0#16
  mem := []
  inputs := []
  dispatchLog := []

/-- The machine right after reset (R32, R210), with the parameters of log 11 and nothing scheduled. -/
def State.reset : State := State.resetWith Config.vectors

end Sys2Proof.Machine
end

