-- ==== Sys2Proof/Machine/Layout.lean ====
section
/-! DEFINITION. The numbers and field positions of the spec: result codes (`60_exceptions.md` R180), the
TCR (`10_state.md` R15), the interrupt words (R17, R18), the element sizes (R19), the BD status word
(`20_memory.md` R46), the DRD word (R49), the register map (R47). -/

namespace Sys2Proof.Machine

/-! ## Result codes (R180) -/

/-- Success with no value. -/
def noErr : Word := 0xFFFFFFFF#32
/-- No interrupt; the same value as `noErr` (R181). -/
def noIntr : Word := 0xFFFFFFFF#32
/-- A refused operand or word (R182). -/
def invalidArg : Word := 0xFFFFFFFE#32
/-- Recoverable: `BDASSIGN` on a full ring (R183). -/
def bdRingFull : Word := 0xFFFFFFFD#32
/-- `APIINIT` after the first (R184). -/
def apiAlreadyInitialized : Word := 0xFFFFFFFC#32
/-- `BDASSIGN` of a size above the length field (R185). -/
def sizeTooLarge : Word := 0xFFFFFFFB#32
/-- Recoverable: `BDRELEASE` on an empty ring (R186). -/
def bdRingEmpty : Word := 0xFFFFFFFA#32
/-- Recoverable: the oldest BD is still the engine's (R186). -/
def bdBusy : Word := 0xFFFFFFF9#32
/-- In the taxonomy, never returned (R187). -/
def taskRunning : Word := 0xFFFFFFF8#32
/-- The null sentinel of `BDGET` and `BDRING` (R118, R119). -/
def nullSentinel : Word := 0#32

/-- `FATAL_REASON` values (R14, R196). -/
def badNumPtr : BitVec 2 := 1#2
/-- See `badNumPtr`. -/
def allocFail : BitVec 2 := 2#2

/-! ## One bit of a 32-bit register -/

/-- `v[i] <- 1`. -/
def bitSet (v : Word) (i : Nat) : Word := v ||| (1#32 <<< i)

/-- `v[i] <- 0`. -/
def bitClear (v : Word) (i : Nat) : Word := v &&& ~~~(1#32 <<< i)

/-! ## The TCR (R15) -/

/-- `EN`, bit 15. -/
def tcrEn (v : Half) : Bool := v.getLsbD 15
/-- `INIT`, bits 12:8. -/
def tcrInit (v : Half) : BitVec 5 := v.extractLsb' 8 5
/-- `ASE`, bit 7. -/
def tcrAse (v : Half) : Bool := v.getLsbD 7
/-- `HOLD`, bit 5. -/
def tcrHold (v : Half) : Bool := v.getLsbD 5
/-- `AST`, bits 3:0. -/
def tcrAst (v : Half) : BitVec 4 := v.extractLsb' 0 4

/-- `EN <- 1`, every other bit preserved. -/
def tcrEnable (v : Half) : Half := v ||| 0x8000#16
/-- `EN <- 0`, every other bit preserved. -/
def tcrDisable (v : Half) : Half := v &&& 0x7FFF#16
/-- `ASE`, `AST` written, every other bit preserved (the mask of R130). -/
def tcrWithAutoStart (ase : Bool) (ast : BitVec 4) (v : Half) : Half :=
  (v &&& 0xFF70#16) ||| ((BitVec.ofBool ase).setWidth 16 <<< 7) ||| ast.setWidth 16
/-- `INIT`, `HOLD` written, every other bit preserved (the mask of R137). -/
def tcrWithInit (init : BitVec 5) (hold : Bool) (v : Half) : Half :=
  (v &&& 0xE0DF#16) ||| (init.setWidth 16 <<< 8) ||| ((BitVec.ofBool hold).setWidth 16 <<< 5)

/-! ## The interrupt words (R17, R18) -/

/-- `SRC_MASK`: the bits that are interrupt sources (R5, R18). -/
def srcMask : Word := 0x9000FFFF#32
/-- The bits of `IPR` that exist; 23:16 and 30:29 read 0 (R17). -/
def iprMask : Word := 0x9F00FFFF#32
/-- `TEA_TASK`, bits 27:24 of `IPR` (R17). -/
def teaTask (ipr : Word) : BitVec 4 := ipr.extractLsb' 24 4
/-- `IPR[27:24] <- t` (R94). -/
def withTeaTask (t : BitVec 4) (ipr : Word) : Word := (ipr &&& 0xF0FFFFFF#32) ||| (t.setWidth 32 <<< 24)

/-! ## The element-size byte (R19, R145) -/

/-- Write the nibble of the even (7:4) or odd (3:0) task of the pair: source code above destination. -/
def szWithCodes (odd : Bool) (src dst : BitVec 2) (v : Byte) : Byte :=
  let n : BitVec 8 := (src ++ dst).setWidth 8
  if odd then (v &&& 0xF0#8) ||| n else (v &&& 0x0F#8) ||| (n <<< 4)

/-! ## The BD (R45, R46) -/

/-- `BD_READY`. -/
def bdReadyMask : Word := 0x40000000#32
/-- `BD_FLAGS_MASK`. -/
def bdFlagsMask : Word := 0x3C000000#32
/-- `BD_LEN_MASK`, also `LEN_MAX`. -/
def bdLenMask : Word := 0x03FFFFFF#32
/-- The `READY` bit of a status word: 1 = the BD is the engine's. -/
def bdReady (status : Word) : Bool := status.getLsbD 30
/-- `BDSIZE(p) = 4 * (1 + p)` bytes. -/
def bdSize (numPtr : BitVec 2) : Nat := 4 * (1 + numPtr.toNat)

/-! ## The DRD word (R49) -/

/-- `EXT`, bit 30. -/
def drdExt (w : Word) : Bool := w.getLsbD 30
/-- `DRD_INIT`, bits 25:21. -/
def drdInit (w : Word) : BitVec 5 := w.extractLsb' 21 5
/-- `INIT_ALWAYS` (R5). -/
def initAlways : BitVec 5 := 0#5
/-- Replace the initiator, every other bit preserved (R140, R141 e). -/
def drdWithInit (x : BitVec 5) (w : Word) : Word := (w &&& 0xFC1FFFFF#32) ||| (x.setWidth 32 <<< 21)

/-! ## The register map (R47) -/

/-- `SDMA_REG_OFFSET` (R5). -/
def sdmaRegOffset : Word := 0x1200#32
/-- Offset of `IPR`. -/
def offIpr : Nat := 0x14
/-- Offset of `IMR`. -/
def offImr : Nat := 0x18
/-- Offset of `TCR[0]`. -/
def offTcr : Nat := 0x1C
/-- Offset of `PRIO[0]`. -/
def offPrio : Nat := 0x3C
/-- Offset of `SZ[0]`. -/
def offSz : Nat := 0x60

end Sys2Proof.Machine
end

