-- ==== Sys2Proof/Machine/Flags.lean ====
section
/-! DEFINITION. The flags and one-bit outputs computed from state: the interrupt words as they read, `EP`
(`10_state.md` R18), `IRQ` and `PANIC` (R30, `60_exceptions.md` R195, R197), the task state (R27). -/

namespace Sys2Proof.Machine

/-- `IPR` as it reads: bits 23:16 and 30:29 are 0 (R17). -/
def iprValue (s : State) : Word := s.ipr &&& iprMask

/-- `IMR` as it reads: every bit that is no interrupt source is hardwired to 1 (R18). -/
def imrValue (s : State) : Word := s.imr ||| ~~~srcMask

/-- The effective pending word `EP = IPR & ~IMR` (R18). -/
def effectivePending (s : State) : Word := iprValue s &&& ~~~imrValue s

/-- The output `IRQ` (R197). -/
def irq (s : State) : Bool := s.glueInit && decide (effectivePending s ≠ 0#32)

/-- The output `PANIC` (R195). -/
def panicLine (s : State) : Bool := s.fatal

/-- The three states of a task (R27). -/
inductive TaskState where
  | unconfigured | stopped | running
  deriving DecidableEq, Repr

/-- The state of task `t` is a view of `TCR[t].EN` and `CFG[t]` (R27). -/
def taskState (s : State) (t : TaskId) : TaskState :=
  if tcrEn s.tcr[t] then .running else if s.configured[t] then .stopped else .unconfigured

end Sys2Proof.Machine
end

