-- ==== Sys2Proof/Machine/Memory.lean ====
section
/-! DEFINITION. The shared memory (`20_memory.md` R40 to R42): bytes listed in rising address order,
words big-endian. -/

namespace Sys2Proof.Machine

/-- The canonical form: addresses strictly rising, all below 2^32. Nothing listed can equal what an
unlisted address reads as, because an unlisted address holds no written value (log 10). -/
def Memory.wf : Memory → Bool
  | [] => true
  | [c] => decide (c.1 < 2 ^ 32)
  | c :: d :: m => decide (c.1 < d.1) && Memory.wf (d :: m)

/-- The byte something has written at `a`, if any. -/
def Memory.lookup : Memory → Nat → Option Byte
  | [], _ => none
  | c :: m, a => if c.1 = a then some c.2 else Memory.lookup m a

/-- List the byte `b` at `a`, keeping the order. -/
def Memory.insert : Memory → Nat → Byte → Memory
  | [], a, b => [(a, b)]
  | c :: m, a, b =>
    if a < c.1 then (a, b) :: c :: m
    else if a = c.1 then (a, b) :: m
    else c :: Memory.insert m a b

/-- What an address reads as: the byte last written, or the free value of log 10 (R42). -/
def Memory.readByte (m : Memory) (a : Word) : Byte :=
  (m.lookup a.toNat).getD (Config.unwrittenByte a.toNat)

/-- Store one byte. -/
def Memory.writeByte (m : Memory) (a : Word) (b : Byte) : Memory := m.insert a.toNat b

/-- Byte `k` of a word in memory order: byte 0 is `v[31:24]` (R41). -/
def beByte (v : Word) (k : Nat) : Byte := v.extractLsb' (24 - 8 * k) 8

/-- `MemRead(a, 4)` (R41, R42). -/
def Memory.readWord (m : Memory) (a : Word) : Word :=
  m.readByte a ++ m.readByte (a + 1#32) ++ m.readByte (a + 2#32) ++ m.readByte (a + 3#32)

/-- `MemWrite(a, 4, v)` (R41, R42). -/
def Memory.writeWord (m : Memory) (a : Word) (v : Word) : Memory :=
  (((m.writeByte a (beByte v 0)).writeByte (a + 1#32) (beByte v 1)).writeByte (a + 2#32)
    (beByte v 2)).writeByte (a + 3#32) (beByte v 3)

end Sys2Proof.Machine
end

