-- ==== Sys2Proof/Machine/Operands.lean ====
section
/-! DEFINITION. The operand forms: argument registers (`30_encoding.md` R64), task and source numbers
(R63, `90_conflicts.md` C4), addresses (`20_memory.md` R43, R45, R50), the auto-start policy
(`42_tcr_config.md` R130). -/

namespace Sys2Proof.Machine

/-- `A[n]` (`00_scope.md` R7). -/
def argReg (s : State) (n : Fin 6) : Word := s.args[n]

/-- `x mod 4 = 0`, that is `x[1:0] = 0` (R43, R124 d). -/
def aligned (a : Word) : Bool := a.extractLsb' 0 2 == 0#2

/-- The 0 to 15 handle every command but `TCFG` takes; anything larger is no handle (R132). -/
def taskHandle (t : Nat) : Option TaskId := if h : t < 16 then some ⟨t, h⟩ else none

/-- `g mod 16`, the task of a global task number (R132). -/
def globalTask (g : Nat) : TaskId := ⟨g % 16, Nat.mod_lt g (by decide)⟩

/-- `i` is a source number: bit `i` of `SRC_MASK` is 1, so 0 to 15, 28 and 31 (`43_interrupt_ops.md`). -/
def isSource (i : Nat) : Bool := srcMask.getLsbD i

/-- `dev(a)`, the device address of a logical address (R50). -/
def dev (s : State) (a : Word) : Word := a + s.physOffset

/-- `cpu(p)`, the logical address of a device address (R50). -/
def cpu (s : State) (p : Word) : Word := p - s.physOffset

/-- `REG_BASE` (R47). -/
def regBase (s : State) : Word := s.mbar + sdmaRegOffset

/-- `ADDR_TCR(t)` (`10_state.md` R16). -/
def addrTcr (s : State) (t : TaskId) : Word :=
  s.mbar + sdmaRegOffset + BitVec.ofNat 32 offTcr + BitVec.ofNat 32 (2 * t.val)

/-- `BDADDR(t, i)` for the ring entry `e` (R45). -/
def bdAddr (e : RingEntry) (i : Nat) : Word := e.base + BitVec.ofNat 32 (i * bdSize e.numPtr)

/-- The value of the `lastPtr` slot: `dev(base) +32 BDSIZE *32 (numBD -32 1)` (R100 line 19, R124 a). -/
def lastBdDev (s : State) (e : RingEntry) (numBD : Word) : Word :=
  dev s e.base + BitVec.ofNat 32 (bdSize e.numPtr) * (numBD - 1#32)

/-- A cursor moves on by one and wraps to 0 at `n` (R124 d). -/
def cursorNext (i n : Half) : Half := BitVec.ofNat 16 ((i.toNat + 1) % n.toNat)

/-- The auto-start policy decode of R130: (`ASE`, `AST`). -/
def policyFields (t : TaskId) (p : Int) : Bool × BitVec 4 :=
  if p ≤ -2 then (false, BitVec.ofNat 4 t.val)
  else if p = -1 then (true, BitVec.ofNat 4 t.val)
  else if 0 ≤ p ∧ p < 16 then (true, BitVec.ofNat 4 p.toNat)
  else (false, BitVec.ofNat 4 t.val)

/-- The DRD address list at `l`: `K` words (R140). -/
def drdAddresses (m : Memory) (l : Word) (k : Nat) : List Word :=
  (List.range k).map fun i => m.readWord (l + BitVec.ofNat 32 (4 * i))

end Sys2Proof.Machine
end

