-- ==== Sys2Proof/Machine/Ops.lean ====
section
/-! DEFINITION. The operations the commands, the engine and the demultiplexer share: ending a command,
the `FATAL` gate, the fatal stop, handler entry and return, register updates, the ring. -/

namespace Sys2Proof.Machine

/-! ## Ending a command -/

/-- `return v`: `RES <- v` (`00_scope.md` R7). -/
def State.ret (s : State) (v : Word) : State := { s with res := v }

/-- `RET1 <- v` (R7). -/
def State.withRet1 (s : State) (v : Word) : State := { s with ret1 := v }

/-- The `FATAL` gate every command starts with (`30_encoding.md` R60, R66): with `FATAL` = 1 nothing
changes, otherwise the command's rule runs as one step. -/
def command (s : State) (body : State → State) : Host.Outcome State Fault Refusal :=
  if s.fatal then .next s else .next (body s)

/-- The range check of a task operand: `t >= 16` returns `INVALID_ARG` (R182). -/
def withTask (t : Nat) (s : State) (body : TaskId → State) : State :=
  match taskHandle t with
  | none => s.ret invalidArg
  | some t => body t

/-- The check that `i` is a source number, else `INVALID_ARG` (R182). -/
def withSource (i : Nat) (s : State) (body : State) : State :=
  if isSource i then body else s.ret invalidArg

/-! ## The fatal stop and handler entry and return -/

/-- `raise Fatal(r)` (`60_exceptions.md` R195): `FATAL` and `FATAL_REASON` are written and nothing
else; the state goes on with every later command ignored (log 13). -/
def raiseFatal (s : State) (reason : BitVec 2) : State := { s with fatal := true, fatalReason := reason }

/-- Handler entry (R199, R201): the dispatch port is written, `DMX_WAIT <- 1`, the scan index moves
past `i`, and `Dispatch(i, fn, param)` is emitted. `IPR` and `IMR` are untouched. -/
def enterHandler (s : State) (i : Fin 32) : State :=
  { s with
    dspId := BitVec.ofNat 5 i.val
    dspFn := s.ht[i].fn
    dspParam := s.ht[i].param
    dmxWait := true
    dmxIdx := BitVec.ofNat 6 (i.val + 1)
    dispatchLog := s.dispatchLog ++ [⟨BitVec.ofNat 5 i.val, s.ht[i].fn, s.ht[i].param⟩] }

/-- Handler return: `DMX_WAIT <- 0` (`43_interrupt_ops.md` R176, R201); nothing is restored. -/
def leaveHandler (s : State) : State := { s with dmxWait := false }

/-! ## Register updates -/

/-- `TCR[t] <- v`. -/
def State.setTcr (s : State) (t : TaskId) (v : Half) : State := { s with tcr := s.tcr.set t v }

/-- `IPR <- v`; the bits that do not exist stay 0 (R17). -/
def State.setIpr (s : State) (v : Word) : State := { s with ipr := v &&& iprMask }

/-- `IMR <- v`; the bits that are no source stay 1 (R18). -/
def State.setImr (s : State) (v : Word) : State := { s with imr := v ||| ~~~srcMask }

/-- `RUNFLAG[t] <- b`. -/
def State.setRunFlag (s : State) (t : TaskId) (b : Bool) : State := { s with runFlag := s.runFlag.set t b }

/-- `CFG[t] <- 1` (R26: never cleared). -/
def State.setConfigured (s : State) (t : TaskId) : State :=
  { s with configured := s.configured.set t true }

/-- `RT[t] <- e`. -/
def State.setRing (s : State) (t : TaskId) (e : RingEntry) : State := { s with rt := s.rt.set t e }

/-- `HT[i] <- h`. -/
def State.setHandler (s : State) (i : Fin 32) (h : Handler) : State := { s with ht := s.ht.set i h }

/-- `ENG_CUR[t] <- c` (R34). -/
def State.setEngCur (s : State) (t : TaskId) (c : Half) : State := { s with engCur := s.engCur.set t c }

/-- `SZ[k] <- v`. -/
def State.setSz (s : State) (k : Fin 8) (v : Byte) : State := { s with sz := s.sz.set k v }

/-- `MemWrite(a, 4, v)` (`20_memory.md` R42). -/
def State.memWrite (s : State) (a : Word) (v : Word) : State := { s with mem := s.mem.writeWord a v }

/-- `MemRead(a, 4)` (R42); a read changes nothing. -/
def State.memRead (s : State) (a : Word) : Word := s.mem.readWord a

/-- `IPR[i] <- 1` (R90). -/
def State.pend (s : State) (i : Nat) : State := s.setIpr (bitSet s.ipr i)

/-- `IPR[i] <- 0` (R160, R199). -/
def State.unpend (s : State) (i : Nat) : State := s.setIpr (bitClear s.ipr i)

/-- `IMR[i] <- 0` when `enable`, else `IMR[i] <- 1` (R82, R172, R173). -/
def State.setMaskBit (s : State) (i : Nat) (enable : Bool) : State :=
  s.setImr (if enable then bitClear s.imr i else bitSet s.imr i)

/-! ## The BD ring (`41_bd_ring.md`) -/

/-- Write one BD in full: `status`, then the pointers (R100 lines 21 to 23, R115). -/
def fillBd (e : RingEntry) (i : Nat) (status : Word) (m : Memory) : Memory :=
  let a := bdAddr e i
  let m := (m.writeWord a status).writeWord (a + 4#32) 0#32
  if e.numPtr = 2#2 then m.writeWord (a + 8#32) 0#32 else m

/-- BDs 0 to `n - 1`, in rising order (R100 line 20, R115). -/
def fillBds (e : RingEntry) (status : Word) (n : Nat) (m : Memory) : Memory :=
  (List.range n).foldl (fun m i => fillBd e i status m) m

/-- Write the recorded start slot with the device address of the ring base; this restarts the
engine's cursor (R105, R116, `40_task_control.md` R93, `10_state.md` R34). -/
def State.writeStartSlot (s : State) (t : TaskId) : State :=
  (s.memWrite s.rt[t].startReg (dev s s.rt[t].base)).setEngCur t 0#16

/-- The allocation test of R100 line 9, on mathematical integers (R124 b):
`(ALLOC_PTR - RING_MEM_BASE) + size > RING_MEM_SIZE`. -/
def allocFails (s : State) (size : Nat) : Bool :=
  decide (s.cfg.ringMemBase.toNat + s.cfg.ringMemSize.toNat < s.allocPtr.toNat + size)

/-- R100 lines 10 to 14: the ring of `t` gets its storage, and the `basePtr` slot its device address. -/
def State.allocRing (s : State) (t : TaskId) (np : BitVec 2) (apiConfig : Byte)
    (baseSlot startSlot maxBD : Word) : State :=
  let s' := s.setRing t
    { s.rt[t] with
      base := s.allocPtr, capBD := maxBD.setWidth 16, numPtr := np, apiConfig := apiConfig,
      startReg := startSlot }
  ({ s' with allocPtr := s.allocPtr + BitVec.ofNat 32 (maxBD.toNat * bdSize np) }).memWrite baseSlot
    (dev s s.allocPtr)

/-- R100 lines 18 to 24: the ring of `t` restarts with `numBD` live BDs of status `status`. -/
def State.armRing (s : State) (t : TaskId) (lastSlot status numBD : Word) : State :=
  let e : RingEntry := { s.rt[t] with inUse := 0#16, numBD := numBD.setWidth 16, wr := 0#16, rd := 0#16 }
  let s1 := (s.setRing t e).memWrite lastSlot (lastBdDev s e numBD)
  ({ s1 with mem := fillBds e status numBD.toNat s1.mem }).writeStartSlot t

/-- The DRD walk of R140's patch pass: `prevExt` and the count are its only state (R141 a). -/
def drdWalk (x : BitVec 5) : List Word → Bool → Nat → Memory → Nat × Memory
  | [], _, n, m => (n, m)
  | a :: as, prevExt, n, m =>
    if prevExt then drdWalk x as false n m
    else if drdInit (m.readWord a) = initAlways then drdWalk x as (drdExt (m.readWord a)) n m
    else
      drdWalk x as (drdExt (m.readWord a)) (n + 1)
        (m.writeWord a (drdWithInit x (m.readWord a)))

end Sys2Proof.Machine
end

