-- ==== Sys2Proof/Machine/Demux.lean ====
section
/-! DEFINITION. The demultiplexer's two steps (`60_exceptions.md` R198, R199). -/

namespace Sys2Proof.Machine

/-- Fire (R198): one snapshot of `EP` per pass. -/
def demuxFire (s : State) : Option State :=
  if s.dmxActive = false ∧ irq s = true then
    some { s with dmxSnap := effectivePending s, dmxIdx := 0#6, dmxActive := true }
  else none

/-- The smallest `j` with `idx <= j <= 31` and bit `j` of `w` set (R199). -/
def nextSource (w : Word) (idx : Nat) : Option (Fin 32) :=
  (List.finRange 32).find? fun j => decide (idx ≤ j.val) && w.getLsbD j.val

/-- Scan (R199): dispatch the next source of the snapshot, or clear it where no handler is
registered, or end the pass. -/
def demuxScan (s : State) : Option State :=
  if s.dmxActive = true ∧ s.dmxWait = false then
    match nextSource s.dmxSnap s.dmxIdx.toNat with
    | none => some { s with dmxActive := false }
    | some i =>
      if s.ht[i].fn ≠ 0#32 then some (enterHandler s i)
      else some { s.unpend i.val with dmxIdx := BitVec.ofNat 6 (i.val + 1) }
  else none

/-- One step of the demultiplexer, whichever of the two is enabled; `none` where neither is. -/
def demuxStep (s : State) : Option State :=
  if s.dmxActive then demuxScan s else demuxFire s

end Sys2Proof.Machine
end

