-- ==== Sys2Proof/Machine/BdRing.lean ====
section
/-! DEFINITION. The BD ring manager (`41_bd_ring.md` R100 to R120). -/

namespace Sys2Proof.Machine

/-- `BDSETUP t, numPtr, apiConfig` (R100, checks in the order of its lines 1 to 17). -/
def execBdsetup (t : Nat) (np : BitVec 2) (apiConfig : Byte) (s : State) :
    Host.Outcome State Fault Refusal :=
  command s fun s => withTask t s fun t =>
    let baseSlot := argReg s 0
    let lastSlot := argReg s 1
    let startSlot := argReg s 2
    let status := argReg s 3
    let numBD := argReg s 4
    let maxBD := argReg s 5
    if ¬(aligned baseSlot ∧ aligned lastSlot ∧ aligned startSlot) then s.ret invalidArg
    else if 0xFFFF < numBD.toNat ∨ 0xFFFF < maxBD.toNat then s.ret invalidArg
    else if maxBD.toNat < numBD.toNat then s.ret invalidArg
    else if np ≠ 1#2 ∧ np ≠ 2#2 then raiseFatal s badNumPtr
    else if s.rt[t].base = 0#32 then
      if maxBD = 0#32 then s.ret invalidArg
      else if allocFails s (maxBD.toNat * bdSize np) then raiseFatal s allocFail
      else
        ((s.allocRing t np apiConfig baseSlot startSlot maxBD).armRing t lastSlot status numBD).ret
          noErr
    else if np ≠ s.rt[t].numPtr then s.ret invalidArg
    else if s.rt[t].capBD.toNat < numBD.toNat then s.ret invalidArg
    else (s.armRing t lastSlot status numBD).ret noErr

/-- The status word `BDASSIGN` writes (R107, R108 f). -/
def assignedStatus (size flags : Word) : Word := bdReadyMask ||| (flags &&& bdFlagsMask) ||| size

/-- `BDASSIGN`'s writes into BD `i`: the pointers first, the status word last (R107, R108 b, R54). -/
def assignBd (e : RingEntry) (i : Nat) (buf0 buf1 status : Word) (m : Memory) : Memory :=
  let a := bdAddr e i
  let m := m.writeWord (a + 4#32) buf0
  let m := if e.numPtr = 2#2 then m.writeWord (a + 8#32) buf1 else m
  m.writeWord a status

/-- `BDASSIGN t` (R107, R108): full is tested before the size. -/
def execBdassign (t : Nat) (s : State) : Host.Outcome State Fault Refusal :=
  command s fun s => withTask t s fun t =>
    let e := s.rt[t]
    if e.inUse = e.numBD then s.ret bdRingFull
    else if bdLenMask.toNat < (argReg s 2).toNat then s.ret sizeTooLarge
    else
      (({ s with
          mem := assignBd e e.wr.toNat (argReg s 0) (argReg s 1)
            (assignedStatus (argReg s 2) (argReg s 3)) s.mem } : State).setRing t
        { e with wr := cursorNext e.wr e.numBD, inUse := e.inUse + 1#16 }).ret (e.wr.setWidth 32)

/-- `BDRELEASE t` (R111, R112): empty is tested before the BD is read; `RET1` is the status word. -/
def execBdrelease (t : Nat) (s : State) : Host.Outcome State Fault Refusal :=
  command s fun s => withTask t s fun t =>
    let e := s.rt[t]
    let status := s.memRead (bdAddr e e.rd.toNat)
    if e.inUse = 0#16 then s.ret bdRingEmpty
    else if bdReady status then s.ret bdBusy
    else
      ((s.setRing t { e with rd := cursorNext e.rd e.numBD, inUse := e.inUse - 1#16 }).withRet1
        status).ret (e.rd.setWidth 32)

/-- `BDRESET t` (R115, R116): the live BDs cleared, the cursors at 0, the start slot rewritten last. -/
def execBdreset (t : Nat) (s : State) : Host.Outcome State Fault Refusal :=
  command s fun s => withTask t s fun t =>
    let e := s.rt[t]
    if e.base = 0#32 then s.ret invalidArg
    else
      ((({ s with mem := fillBds e 0#32 e.numBD.toNat s.mem } : State).setRing t
        { e with inUse := 0#16, wr := 0#16, rd := 0#16 }).writeStartSlot t).ret noErr

/-- `BDGET t, idx` (R118): the null sentinel for no task, no ring or no live BD; never an error. -/
def execBdget (t idx : Nat) (s : State) : Host.Outcome State Fault Refusal :=
  command s fun s =>
    match taskHandle t with
    | none => s.ret nullSentinel
    | some t =>
      if s.rt[t].base = 0#32 ∨ s.rt[t].numBD.toNat ≤ idx then s.ret nullSentinel
      else s.ret (bdAddr s.rt[t] idx)

/-- `BDRING t` (R119): the address of BD 0, or the null sentinel. -/
def execBdring (t : Nat) (s : State) : Host.Outcome State Fault Refusal :=
  command s fun s =>
    match taskHandle t with
    | none => s.ret nullSentinel
    | some t => if s.rt[t].base = 0#32 then s.ret nullSentinel else s.ret s.rt[t].base

/-- `BDINUSE t` (R120). -/
def execBdinuse (t : Nat) (s : State) : Host.Outcome State Fault Refusal :=
  command s fun s => withTask t s fun t => s.ret (s.rt[t].inUse.setWidth 32)

end Sys2Proof.Machine
end

