-- ==== Sys2Proof/Machine/Interrupt.lean ====
section
/-! DEFINITION. Interrupt queries and glue (`43_interrupt_ops.md` R160 to R176). -/

namespace Sys2Proof.Machine

/-- `TINTCLR i` (R160): for source 28 the sub-field is cleared too. -/
def execTintclr (i : Nat) (s : State) : Host.Outcome State Fault Refusal :=
  command s fun s => withSource i s <|
    (s.setIpr (if i = 28 then withTeaTask 0#4 (bitClear s.ipr i) else bitClear s.ipr i)).ret noErr

/-- `TINTSTAT i` (R162): debug, then TEA, then the task's own bit. -/
def execTintstat (i : Nat) (s : State) : Host.Outcome State Fault Refusal :=
  command s fun s => withTask i s fun t =>
    if (effectivePending s).getLsbD 31 then s.ret 31#32
    else if (effectivePending s).getLsbD 28 then s.ret 28#32
    else if (effectivePending s).getLsbD t.val then s.ret (BitVec.ofNat 32 t.val)
    else s.ret noIntr

/-- `TINTPEND i` (R163): the task's own bit only. -/
def execTintpend (i : Nat) (s : State) : Host.Outcome State Fault Refusal :=
  command s fun s => withTask i s fun t =>
    if (effectivePending s).getLsbD t.val then s.ret (BitVec.ofNat 32 t.val) else s.ret noIntr

/-- The highest task number below `n` whose bit of `w` is set: the scan of R164, `n - 1` first. -/
def highestTask (w : Word) : Nat → Option Nat
  | 0 => none
  | n + 1 => if w.getLsbD n then some n else highestTask w n

/-- `TINTSRC` (R164): TEA's task first, then the highest pending task. -/
def execTintsrc (s : State) : Host.Outcome State Fault Refusal :=
  command s fun s =>
    if (effectivePending s).getLsbD 28 then s.ret ((teaTask s.ipr).setWidth 32)
    else
      match highestTask (effectivePending s) 16 with
      | some t => s.ret (BitVec.ofNat 32 t)
      | none => s.ret noIntr

/-- `GINIT` (R170): the first clears the handler table; a second changes nothing. -/
def execGinit (s : State) : Host.Outcome State Fault Refusal :=
  command s fun s =>
    if s.glueInit then s.ret noErr
    else ({ s with ht := Vector.replicate 32 Handler.none, glueInit := true } : State).ret noErr

/-- `GIRQEN i` (R172). -/
def execGirqen (i : Nat) (s : State) : Host.Outcome State Fault Refusal :=
  command s fun s => withSource i s <| (s.setMaskBit i true).ret noErr

/-- `GIRQDIS i` (R173). -/
def execGirqdis (i : Nat) (s : State) : Host.Outcome State Fault Refusal :=
  command s fun s => withSource i s <| (s.setMaskBit i false).ret noErr

/-- `GINSTALL i` (R174): all 32 slots can be written. -/
def execGinstall (i : Nat) (s : State) : Host.Outcome State Fault Refusal :=
  command s fun s =>
    if h : i < 32 then (s.setHandler ⟨i, h⟩ ⟨argReg s 0, argReg s 1⟩).ret noErr
    else s.ret invalidArg

/-- `GHDONE` (R176): the return from a dispatched handler. -/
def execGhdone (s : State) : Host.Outcome State Fault Refusal :=
  command s fun s => if s.dmxWait then (leaveHandler s).ret noErr else s.ret invalidArg

end Sys2Proof.Machine
end

