-- ==== Sys2Proof/Machine/TaskControl.lean ====
section
/-! DEFINITION. Initialisation and task control (`40_task_control.md` R80 to R87). -/

namespace Sys2Proof.Machine

/-- `APIINIT vm` (R80): records `MBAR` and `PHYS_OFFSET` once. -/
def execApiinit (vm : Bool) (s : State) : Host.Outcome State Fault Refusal :=
  command s fun s =>
    if s.apiInit then s.ret apiAlreadyInitialized
    else
      ({ s with
        mbar := argReg s 0
        physOffset := if vm then argReg s 1 - argReg s 0 else 0#32
        apiInit := true } : State).ret noErr

/-- The TCR `TSTART` leaves (R82, R83 a): `ASE`/`AST` are rewritten when `ase` = 1, or always under
`START_ALWAYS_WRITES_AS`; `EN <- 1`. -/
def startedTcr (always ase : Bool) (ast : Nat) (v : Half) : Half :=
  tcrEnable (if ase || always then tcrWithAutoStart ase (BitVec.ofNat 4 ast) v else v)

/-- `TSTART t, ase, ast, ie` (R82, R83). -/
def execTstart (t : Nat) (ase : Bool) (ast : Nat) (ie : Bool) (s : State) :
    Host.Outcome State Fault Refusal :=
  command s fun s => withTask t s fun t =>
    if ase = true ∧ 16 ≤ ast then s.ret invalidArg
    else if s.configured[t] = false then s.ret invalidArg
    else
      (((s.setMaskBit t.val ie).setTcr t
        (startedTcr s.cfg.startAlwaysWritesAs ase ast s.tcr[t])).setRunFlag t true).ret noErr

/-- `TSTOP t` (R85). -/
def execTstop (t : Nat) (s : State) : Host.Outcome State Fault Refusal :=
  command s fun s => withTask t s fun t =>
    ((s.setTcr t (tcrDisable s.tcr[t])).setRunFlag t false).ret noErr

/-- `TSTAT t` (R87): `RES` = `EN`, `RET1` = the advisory flag. -/
def execTstat (t : Nat) (s : State) : Host.Outcome State Fault Refusal :=
  command s fun s => withTask t s fun t =>
    (s.withRet1 ((BitVec.ofBool s.runFlag[t]).setWidth 32)).ret
      ((BitVec.ofBool (tcrEn s.tcr[t])).setWidth 32)

end Sys2Proof.Machine
end

