-- ==== Sys2Proof/Machine/TcrConfig.lean ====
section
/-! DEFINITION. The TCR configurator (`42_tcr_config.md` R130 to R145). -/

namespace Sys2Proof.Machine

/-- `TCFG g, policy` (R130 to R134): `A0` = 0 means no enable slot. -/
def execTcfg (g : Nat) (policy : Int) (s : State) : Host.Outcome State Fault Refusal :=
  command s fun s =>
    let slot := argReg s 0
    let t := globalTask g
    if aligned slot = false then s.ret invalidArg
    else
      let s1 := (s.setRunFlag t false).setConfigured t
      let s2 := if slot = 0#32 then s1 else s1.memWrite slot (dev s (addrTcr s t))
      (s2.setTcr t (tcrWithAutoStart (policyFields t policy).1 (policyFields t policy).2 s.tcr[t])).ret
        (BitVec.ofNat 32 t.val)

/-- `TSETI t, init, hold` (R137). -/
def execTseti (t : Nat) (init : BitVec 5) (hold : Bool) (s : State) :
    Host.Outcome State Fault Refusal :=
  command s fun s => withTask t s fun t => (s.setTcr t (tcrWithInit init hold s.tcr[t])).ret noErr

/-- `DRDPATCH init` (R140, R141): every check before any write; the list is read once, before the
walk. -/
def execDrdpatch (init : BitVec 5) (s : State) : Host.Outcome State Fault Refusal :=
  command s fun s =>
    let list := argReg s 0
    let k := argReg s 1
    if aligned list = false ∨ 0xFFFF < k.toNat then s.ret invalidArg
    else
      let as := drdAddresses s.mem list k.toNat
      if as.all aligned = false then s.ret invalidArg
      else
        let walked := drdWalk init as false 0 s.mem
        (({ s with mem := walked.2 } : State).withRet1 (BitVec.ofNat 32 walked.1)).ret noErr

/-- The byte of `SZ` that serves task `t`, `t div 2` (R19, R145). -/
def szIndex (t : TaskId) : Fin 8 := ⟨t.val / 2, by have := t.isLt; omega⟩

/-- `SZSET t, src, dst` (R145). -/
def execSzset (t : Nat) (src dst : BitVec 2) (s : State) : Host.Outcome State Fault Refusal :=
  command s fun s => withTask t s fun t =>
    (s.setSz (szIndex t) (szWithCodes (decide (t.val % 2 = 1)) src dst s.sz[szIndex t])).ret noErr

end Sys2Proof.Machine
end

