-- ==== Sys2Proof/Machine/Dispatch.lean ====
section
/-! DEFINITION. One arm per command, each a direct call of its meaning. -/

namespace Sys2Proof.Machine

def exec (i : Instr) (s : State) : Host.Outcome State Fault Refusal :=
  match i with
  | .apiinit vm => Sys2Proof.Machine.execApiinit vm s
  | .tstart t ase ast ie => Sys2Proof.Machine.execTstart t ase ast ie s
  | .tstop t => Sys2Proof.Machine.execTstop t s
  | .tstat t => Sys2Proof.Machine.execTstat t s
  | .bdsetup t np apiConfig => Sys2Proof.Machine.execBdsetup t np apiConfig s
  | .bdassign t => Sys2Proof.Machine.execBdassign t s
  | .bdrelease t => Sys2Proof.Machine.execBdrelease t s
  | .bdreset t => Sys2Proof.Machine.execBdreset t s
  | .bdget t idx => Sys2Proof.Machine.execBdget t idx s
  | .bdring t => Sys2Proof.Machine.execBdring t s
  | .bdinuse t => Sys2Proof.Machine.execBdinuse t s
  | .tcfg g policy => Sys2Proof.Machine.execTcfg g policy s
  | .tseti t init hold => Sys2Proof.Machine.execTseti t init hold s
  | .drdpatch init => Sys2Proof.Machine.execDrdpatch init s
  | .szset t src dst => Sys2Proof.Machine.execSzset t src dst s
  | .tintclr src => Sys2Proof.Machine.execTintclr src s
  | .tintstat src => Sys2Proof.Machine.execTintstat src s
  | .tintpend src => Sys2Proof.Machine.execTintpend src s
  | .tintsrc => Sys2Proof.Machine.execTintsrc s
  | .ginit => Sys2Proof.Machine.execGinit s
  | .girqen src => Sys2Proof.Machine.execGirqen src s
  | .girqdis src => Sys2Proof.Machine.execGirqdis src s
  | .ginstall src => Sys2Proof.Machine.execGinstall src s
  | .ghdone => Sys2Proof.Machine.execGhdone s

end Sys2Proof.Machine
end

