-- ==== Sys2Proof/Machine/Engine.lean ====
section
/-! DEFINITION. The engine's moves (`40_task_control.md` R90 to R95, R98). -/

namespace Sys2Proof.Machine

/-- The task a TCR's `AST` field names (R15). -/
def autoStartTask (v : Half) : TaskId := (tcrAst v).toFin

/-- `E_INT(t)` (R90): no precondition, `IMR` is not looked at. -/
def engineInt (t : TaskId) (s : State) : Option State := some (s.pend t.val)

/-- `E_DONE(t)` (R91): needs `EN` = 1; the auto-start chain, one link. -/
def engineDone (t : TaskId) (s : State) : Option State :=
  if tcrEn s.tcr[t] then
    if tcrAse s.tcr[t] then
      some (s.setTcr (autoStartTask s.tcr[t]) (tcrEnable s.tcr[autoStartTask s.tcr[t]]))
    else some s
  else none

/-- `E_SELFDIS(t)` (R92): needs `EN` = 1; `RUNFLAG` is not touched. -/
def engineSelfDis (t : TaskId) (s : State) : Option State :=
  if tcrEn s.tcr[t] then some (s.setTcr t (tcrDisable s.tcr[t])) else none

/-- The address of the BD the engine finishes next (R93). -/
def engineBdAddr (s : State) (t : TaskId) : Word := bdAddr s.rt[t] s.engCur[t].toNat

/-- `E_BDDONE(t, s)` (R93): needs a live ring whose BD at the engine's cursor has `READY` = 1, and a
status with `READY` = 0; no `EN` precondition. -/
def engineBdDone (t : TaskId) (status : Word) (s : State) : Option State :=
  if bdReady status = false ∧ s.rt[t].base ≠ 0#32 ∧ s.rt[t].numBD ≠ 0#16 ∧
      bdReady (s.memRead (engineBdAddr s t)) = true then
    some ((s.memWrite (engineBdAddr s t) status).setEngCur t
      (cursorNext s.engCur[t] s.rt[t].numBD))
  else none

/-- `E_TEA(t)` (R94): the sub-field is overwritten. -/
def engineTea (t : TaskId) (s : State) : Option State :=
  some (s.setIpr (withTeaTask (BitVec.ofNat 4 t.val) (bitSet s.ipr 28)))

/-- `E_DBG` (R95). -/
def engineDbg (s : State) : Option State := some (s.pend 31)

/-- One move of the engine; `none` where its precondition fails. -/
def engineMove : EngineEvent → State → Option State
  | .int t, s => engineInt t s
  | .done t, s => engineDone t s
  | .selfDis t, s => engineSelfDis t s
  | .bdDone t status, s => engineBdDone t status s
  | .tea t, s => engineTea t s
  | .dbg, s => engineDbg s

end Sys2Proof.Machine
end

