-- ==== Sys2Proof/Machine/RegMap.lean ====
section
/-! DEFINITION. The register block as the host and the engine read it (`20_memory.md` R47). -/

namespace Sys2Proof.Machine

/-- What stands at an offset of the register block. -/
inductive RegCell where
  /-- Byte `k` of `IPR`. -/
  | ipr (k : Fin 4)
  /-- Byte `k` of `IMR`. -/
  | imr (k : Fin 4)
  /-- Byte `k` of `TCR[t]`. -/
  | tcr (t : TaskId) (k : Fin 2)
  /-- `PRIO[i]`. -/
  | prio (i : Fin 32)
  /-- `SZ[k]`. -/
  | sz (k : Fin 8)
  deriving DecidableEq, Repr

/-- The register map of R47, byte by byte. -/
def regCellAt (o : Nat) : Option RegCell :=
  if h : offIpr ≤ o ∧ o < offIpr + 4 then some (.ipr ⟨o - offIpr, by omega⟩)
  else if h : offImr ≤ o ∧ o < offImr + 4 then some (.imr ⟨o - offImr, by omega⟩)
  else if h : offTcr ≤ o ∧ o < offTcr + 32 then
    some (.tcr ⟨(o - offTcr) / 2, by omega⟩ ⟨(o - offTcr) % 2, Nat.mod_lt _ (by decide)⟩)
  else if h : offPrio ≤ o ∧ o < offPrio + 32 then some (.prio ⟨o - offPrio, by omega⟩)
  else if h : offSz ≤ o ∧ o < offSz + 8 then some (.sz ⟨o - offSz, by omega⟩)
  else none

/-- The register cell at logical address `a`; the block has a place once `APIINIT` has written `MBAR`
(log 15). -/
def regCell (s : State) (a : Word) : Option RegCell :=
  if s.apiInit then regCellAt (a - regBase s).toNat else none

/-- The byte of a register, most significant byte at the lowest address (R41, log 18). -/
def regCellByte (s : State) : RegCell → Byte
  | .ipr k => beByte (iprValue s) k.val
  | .imr k => beByte (imrValue s) k.val
  | .tcr t k => s.tcr[t].extractLsb' (8 - 8 * k.val) 8
  | .prio i => s.prio[i]
  | .sz k => s.sz[k]

/-- A byte as the host or the engine reads it: the register block where it lies, else memory (R31,
R47). A read changes nothing (R44). -/
def busByte (s : State) (a : Word) : Byte :=
  match regCell s a with
  | some c => regCellByte s c
  | none => s.mem.readByte a

/-- `PRIO[i] <- b`, by the host directly (`70_reset_and_hazards.md` R211, R213 step 3; log 8). -/
def State.setPrio (s : State) (i : Fin 32) (b : Byte) : State := { s with prio := s.prio.set i b }

/-- A byte stored by the environment: memory, or, at any register of the map, no behaviour (R47, R227,
`93_implementation_defined.md` U9; log 15). -/
def storeByte (a : Word) (b : Byte) (s : State) : Host.Outcome State Fault Refusal :=
  match regCell s a with
  | some _ => .fault (.registerBlockWrite a)
  | none => .next { s with mem := s.mem.writeByte a b }

/-- Go on with `f` from the next state, or stop as `o` does. -/
def andThen {A B : Type} (o : Host.Outcome A Fault Refusal) (f : A → Host.Outcome B Fault Refusal) :
    Host.Outcome B Fault Refusal :=
  match o with
  | .next s => f s
  | .fault r => .fault r
  | .refused r => .refused r

/-- A word stored by the environment: its four bytes, big-endian (R41). -/
def storeWord (a v : Word) (s : State) : Host.Outcome State Fault Refusal :=
  andThen (andThen (andThen (storeByte a (beByte v 0) s) (storeByte (a + 1#32) (beByte v 1)))
    (storeByte (a + 2#32) (beByte v 2))) (storeByte (a + 3#32) (beByte v 3))

end Sys2Proof.Machine
end

