-- ==== Sys2Proof/Machine/Port.lean ====
section
/-! DEFINITION. One move of one agent: the command port (`30_encoding.md` R60), the engine, the
demultiplexer, reset (`70_reset_and_hazards.md` R210), the environment's stores. -/

namespace Sys2Proof.Machine

/-- The host writes `An` (R10). -/
def writeArg (n : Fin 6) (v : Word) (s : State) : State :=
  { s with args := s.args.set n v, argWritten := s.argWritten.set n true }

/-- The word is decoded and the command runs; a word that spells no command leaves `INVALID_ARG` in
`RES` and changes nothing else (R67). -/
def runWord (w : Word) (s : State) : Host.Outcome State Fault Refusal :=
  match decode w with
  | .ok i => exec i s
  | .error _ => .next (s.ret invalidArg)

/-- The host writes `CMD` (R60): refused whole while `FATAL` = 1, else the word is latched (log 5) and
run. -/
def writeCmd (w : Word) (s : State) : Host.Outcome State Fault Refusal :=
  if s.fatal then .next s else runWord w { s with cmd := w }

/-- Reset (R210): the table of R32; memory is kept (`95_test_vectors.md` P6), and so are the
parameters, the moves still to come and the events already emitted (log 17). -/
def resetInput (s : State) : State :=
  { State.resetWith s.cfg with mem := s.mem, inputs := s.inputs, dispatchLog := s.dispatchLog }

/-- One move. A move whose precondition fails does not happen (log 2). -/
def applyInput (m : Input) (s : State) : Host.Outcome State Fault Refusal :=
  match m with
  | .arg n v => .next (writeArg n v s)
  | .cmd w => writeCmd w s
  | .engine e => .next ((engineMove e s).getD s)
  | .demux => .next ((demuxStep s).getD s)
  | .reset => .next (resetInput s)
  | .storeWord a v => storeWord a v s
  | .storeByte a b => storeByte a b s
  | .prio i b => .next (s.setPrio i b)

end Sys2Proof.Machine
end

