-- ==== Sys2Proof/Machine/Step.lean ====
section
/-! DEFINITION. One step of the machine: the next move of the schedule (log 1). -/

namespace Sys2Proof.Machine

/-- The oldest move of the schedule is taken and made; with nothing scheduled TSM waits
(`70_reset_and_hazards.md` R212, log 3). -/
def step (s : State) : Host.Outcome State Fault Refusal :=
  match s.inputs with
  | [] => .next s
  | m :: rest => applyInput m { s with inputs := rest }

/-- `s` with the command word `w` as the next thing the host writes to `CMD` (log 1). -/
def State.withFetchWord (s : State) (nbits w : Nat) : State :=
  { s with inputs := .cmd (BitVec.ofNat 32 (w % 2 ^ nbits)) :: s.inputs }

end Sys2Proof.Machine
end

