-- ==== Sys2Proof/Machine/HostSide.lean ====
section
/-! DEFINITION. The host-side steps of the setup sequence (`42_tcr_config.md` R146 to R156) and the two
pseudo-instructions of `30_encoding.md` R71, `TASKSETUP` and `BDDRAIN`, as sequences of host moves with
the moves of the other agents between them. Nothing here is a command; the slots are the host's
(log 25). -/

namespace Sys2Proof.Machine

/-- The increment types of R152. -/
inductive IncrType where
  | fifo | auto | runtime | constant
  deriving DecidableEq, Repr

/-- The compile-time facts of one side, source or destination (R147, R152). -/
structure SideProfile where
  incrType : IncrType
  /-- The task declares flexible sizing. -/
  flexible : Bool
  fixedSize : Nat
  fifoAddr : Word
  constStride : Int
  deriving DecidableEq, Repr

/-- What the caller asks for one side (R147). -/
structure SideParams where
  size : Nat
  incr : Int
  start : Word
  deriving DecidableEq, Repr

/-- The variable-table slots of one side. -/
structure SideSlots where
  sizeSlot : Word
  addrSlot : Word
  strideSlot : Word
  misalignSlot : Word
  deriving DecidableEq, Repr

/-- The TaskDescriptor of R147: the addresses the image gives. -/
structure TaskDescriptor where
  globalNumber : Nat
  enableSlot : Word
  baseSlot : Word
  lastSlot : Word
  startSlot : Word
  pragmaAddr : Word
  flagDrdSlot : Word
  extraIterSlot : Word
  bpeSlot : Word
  /-- Where the DRD address list stands. -/
  drdList : Word
  /-- The DRD word addresses it holds, in list order. -/
  drdAddrs : List Word
  src : SideSlots
  dst : SideSlots
  deriving DecidableEq, Repr

/-- The TaskProfile of R147: the compile-time constants. R147 lists no place for the `apiConfig`
operand of `BDSETUP`; that it is a constant of the profile is the model's choice (log 28). -/
structure TaskProfile where
  /-- `MAX_BD`; the task is BD-based when it is positive (R150). -/
  maxBD : Nat
  bdFlags : Bool
  /-- The model's place for it (log 28). -/
  apiConfig : Byte
  src : SideProfile
  dst : SideProfile
  /-- The fixed initiator, or `none` when it is runtime-configurable (R151). -/
  fixedInit : Option (BitVec 5)
  policy : Int
  misalign : Bool
  iterations : Nat
  /-- The six pragma flags in the order of R149. -/
  pragma : Vector Bool 6
  bpeDefault : Int
  deriving DecidableEq, Repr

/-- The TaskSetupParameters of R147. R147 lists no place for `A3` of `BDSETUP` nor for the `hold`
operand of `TSETI`; that both are the caller's parameters is the model's choice (log 28). -/
structure SetupParams where
  numBD : Word
  /-- The one word of the union "max-buffer-size or byte-count"; see `transferSize`. -/
  sizeOrCount : Word
  /-- `A3` of `BDSETUP`; the model's place for it (log 28). -/
  status : Word
  init : BitVec 5
  /-- `hold` of `TSETI`; the model's place for it (log 28). -/
  hold : Bool
  src : SideParams
  dst : SideParams
  deriving DecidableEq, Repr

/-- The task is BD-based (R150). -/
def TaskProfile.bdBased (p : TaskProfile) : Bool := decide (0 < p.maxBD)

/-- "max-buffer-size or byte-count (union, discriminated by whether the task is BD-based)" (R147). -/
inductive TransferSize where
  | maxBufferSize (bytes : Word)
  | byteCount (bytes : Word)
  deriving DecidableEq, Repr

/-- The union of R147 as the task reads it. No step of R156 reads it: it goes back to the caller as it
came. -/
def transferSize (p : TaskProfile) (q : SetupParams) : TransferSize :=
  if p.bdBased then .maxBufferSize q.sizeOrCount else .byteCount q.sizeOrCount

/-- The size code of R146: size mod 4. -/
def sizeCode (size : Nat) : BitVec 2 := BitVec.ofNat 2 size

/-- The pragma byte (R149) with the flag positions of the configuration. That a bit no flag position
names is 0 is the model's choice: R149 gives it no value (log 29). -/
def pragmaByte (c : Config) (flags : Vector Bool 6) : Byte :=
  (List.finRange 6).foldl (fun b i => if flags[i] then b ||| (1#8 <<< c.pragmaBits[i].val) else b) 0#8

/-- The number of data pointers per BD (R150): the sides that are not FIFO. -/
def numPointers (src dst : IncrType) : BitVec 2 :=
  (if src = .fifo then 0#2 else 1#2) + (if dst = .fifo then 0#2 else 1#2)

/-- The resolved element size of a side (R152). -/
def resolvedSize (p : SideProfile) (q : SideParams) : Nat := if p.flexible then q.size else p.fixedSize

/-- The resolved stride of a side (R152). -/
def resolvedStride (p : SideProfile) (q : SideParams) : Int :=
  match p.incrType with
  | .fifo => 0
  | .auto => if q.incr < 0 then -(resolvedSize p q : Int) else (resolvedSize p q : Int)
  | .runtime => q.incr
  | .constant => p.constStride

/-- The address written for a side, if any (R152). -/
def sideAddress (bdBased : Bool) (p : SideProfile) (q : SideParams) : Option Word :=
  if p.incrType = .fifo then some p.fifoAddr else if bdBased then none else some q.start

/-- The misalignment indicator -1, 0 or +1 of a stride (R153). -/
def misalignSign (stride : Int) : Int := if stride < 0 then -1 else if stride = 0 then 0 else 1

/-- The bytes-per-element increment (R154). -/
def bytesPerElement (strideSrc strideDst dflt : Int) : Int :=
  if strideSrc ≠ 0 then -(strideSrc.natAbs : Int)
  else if strideDst ≠ 0 then -(strideDst.natAbs : Int)
  else dflt

/-- A mathematical integer stored as a two's-complement word (R124 g). -/
def storedInt (v : Int) : Word := BitVec.ofInt 32 v

/-- Step 8 for one side (R152, R153): size, address where there is one, stride, indicator. -/
def sideMoves (bdBased misalign : Bool) (slots : SideSlots) (p : SideProfile) (q : SideParams) :
    List Input :=
  [.storeWord slots.sizeSlot (BitVec.ofNat 32 (resolvedSize p q))] ++
  (match sideAddress bdBased p q with
   | some a => [.storeWord slots.addrSlot a]
   | none => []) ++
  [.storeWord slots.strideSlot (storedInt (resolvedStride p q))] ++
  (if misalign then
    [.storeWord slots.misalignSlot (storedInt (misalignSign (resolvedStride p q)))] else [])

/-! ## `TASKSETUP` -/

/-- Steps 2, 3, 5c, 6, 11 (R156): the enable slot of a BD-based task, 0 of any other (R134). -/
def configureMoves (d : TaskDescriptor) (p : TaskProfile) : List Input :=
  [.arg 0 (if p.bdBased then d.enableSlot else 0#32), .cmd (encode (.tcfg d.globalNumber p.policy))]

/-- Step 4 and, for a BD-based task, steps 5a and 5b up to `BDSETUP` (R149, R150). -/
def ringMoves (c : Config) (d : TaskDescriptor) (p : TaskProfile) (q : SetupParams) (t : TaskId) :
    List Input :=
  .storeByte d.pragmaAddr (pragmaByte c p.pragma) ::
  if p.bdBased then
    [.arg 0 d.baseSlot, .arg 1 d.lastSlot, .arg 2 d.startSlot, .arg 3 q.status, .arg 4 q.numBD,
     .arg 5 (BitVec.ofNat 32 p.maxBD),
     .cmd (encode (.bdsetup t.val (numPointers p.src.incrType p.dst.incrType) p.apiConfig))]
  else []

/-- The host's store of step 5 (R150): the flag-DRD slot of a BD-based task that has flag bits (the
address of the second-to-last DRD word), the extra iterations of any other task. -/
def step5Stores (d : TaskDescriptor) (p : TaskProfile) : List Input :=
  if p.bdBased then
    if p.bdFlags ∧ 2 ≤ d.drdAddrs.length then
      [.storeWord d.flagDrdSlot (d.drdAddrs.getD (d.drdAddrs.length - 2) 0#32)] else []
  else [.storeWord d.extraIterSlot (storedInt ((p.iterations : Int) - 1))]

/-- Step 7 (R151): only a runtime-configurable task issues `TSETI` and `DRDPATCH`. -/
def initiatorMoves (d : TaskDescriptor) (p : TaskProfile) (q : SetupParams) (t : TaskId) : List Input :=
  match p.fixedInit with
  | some _ => []
  | none =>
    [.cmd (encode (.tseti t.val q.init q.hold)), .arg 0 d.drdList,
     .arg 1 (BitVec.ofNat 32 d.drdAddrs.length), .cmd (encode (.drdpatch q.init))]

/-- The store of step 5 and steps 7 to 10 (R156); a BD-based task then asks `BDRING` for the address of
its first BD (R152, and `95_test_vectors.md` P5 line 10). -/
def finishMoves (d : TaskDescriptor) (p : TaskProfile) (q : SetupParams) (t : TaskId) : List Input :=
  step5Stores d p ++ initiatorMoves d p q t ++
  sideMoves p.bdBased p.misalign d.src p.src q.src ++ sideMoves p.bdBased p.misalign d.dst p.dst q.dst ++
  [.cmd (encode (.szset t.val (sizeCode (resolvedSize p.src q.src)) (sizeCode (resolvedSize p.dst q.dst)))),
   .storeWord d.bpeSlot (storedInt (bytesPerElement (resolvedStride p.src q.src)
     (resolvedStride p.dst q.dst) p.bpeDefault))] ++
  if p.bdBased then [.cmd (encode (.bdring t.val))] else []

/-- What a setup reports back for one side (R147, R152): the size and stride used and, where a BD-based
task has no literal address, the address `ring` of the ring's first BD. That it comes back in the
`start` field is the model's choice (log 25). -/
def sideOutput (bdBased : Bool) (ring : Word) (p : SideProfile) (q : SideParams) : SideParams where
  size := resolvedSize p q
  incr := resolvedStride p q
  start := if bdBased = true ∧ p.incrType ≠ .fifo then ring else q.start

/-- What a setup reports back to its caller (R147, R151, R152): the actual values used. -/
def setupOutputs (p : TaskProfile) (q : SetupParams) (ring : Word) : SetupParams :=
  { q with
    init := p.fixedInit.getD q.init
    src := sideOutput p.bdBased ring p.src q.src
    dst := sideOutput p.bdBased ring p.dst q.dst }

/-! ## Running a host-side sequence -/

/-- Moves made one after the other, up to the first stop. -/
def runMoves : List Input → State → Host.Outcome State Fault Refusal
  | [], s => .next s
  | m :: ms, s => andThen (applyInput m s) (runMoves ms)

/-- The host's moves with the moves of other agents between them (R53, R156): the first of `env` comes
before the first host move, the second before the second. -/
def interleave : List Input → List (List Input) → List Input
  | [], _ => []
  | m :: ms, [] => m :: ms
  | m :: ms, e :: env => e ++ m :: interleave ms env

/-- How a setup ends. -/
inductive SetupEnd where
  /-- `TCFG` was refused, so `RES` names no task and the host stops there: the model's choice (log 25). -/
  | noHandle
  /-- `FATAL` = 1: the setup ends there (`90_conflicts.md` C9, `60_exceptions.md` R195). -/
  | panicked
  /-- Every step was made; the handle and the parameters reported back. -/
  | done (t : TaskId) (out : SetupParams)
  deriving DecidableEq, Repr

/-- One stretch of host moves, then, unless `PANIC` is up, what follows it. -/
def setupStage (ms : List Input) (env : List (List Input)) (s : State)
    (rest : State → Host.Outcome (SetupEnd × State) Fault Refusal) :
    Host.Outcome (SetupEnd × State) Fault Refusal :=
  andThen (runMoves (interleave ms env) s) fun s' =>
    if panicLine s' then .next (.panicked, s') else rest s'

/-- `TASKSETUP` (R71, R156): the handle `t` is the `RES` that `TCFG` left; `env` holds the moves of other
agents, one list for each host move. The spec does not say what the host does when a command of the
sequence is refused. The model's choice (log 25): after a refused `TCFG` it stops, having no handle;
after a refused `BDSETUP`, `TSETI`, `DRDPATCH` or `SZSET` it goes on (R155: no error return). -/
def taskSetup (d : TaskDescriptor) (p : TaskProfile) (q : SetupParams) (env : List (List Input))
    (s : State) : Host.Outcome (SetupEnd × State) Fault Refusal :=
  setupStage (configureMoves d p) env s fun s1 =>
    match taskHandle s1.res.toNat with
    | none => .next (.noHandle, s1)
    | some t =>
      let env := env.drop (configureMoves d p).length
      setupStage (ringMoves s.cfg d p q t) env s1 fun s2 =>
        let env := env.drop (ringMoves s.cfg d p q t).length
        setupStage (finishMoves d p q t) env s2 fun s3 =>
          .next (.done t (setupOutputs p q s3.res), s3)

/-! ## `BDDRAIN` -/

/-- `BDDRAIN t` (R71, `70_reset_and_hazards.md` R229): `BDRELEASE t` written to `CMD` until `RES` is no BD
index, one poll for each entry of `env`, which holds the moves other agents make before that poll; the
indices released, in order, and the state after. Each poll is a write of `CMD`, so `CMD` holds its word
afterwards (R60, log 5). That the loop also stops at `INVALID_ARG` and at `FATAL` = 1 is the model's
choice (log 26). -/
def bdDrain (t : Nat) : List (List Input) → State →
    Host.Outcome (List Word × State) Fault Refusal
  | [], s => .next ([], s)
  | others :: env, s =>
    andThen (runMoves others s) fun s1 =>
      andThen (writeCmd (encode (.bdrelease t)) s1) fun s2 =>
        if panicLine s2 || s2.res.msb then .next ([], s2)
        else andThen (bdDrain t env s2) fun r => .next (s2.res :: r.1, r.2)

end Sys2Proof.Machine
end

