-- ==== Sys2Proof/Safety.lean ====
section
/-! DEFINITION. What counts as a safe run: no fatal stop (`60_exceptions.md` R195), no read of a register
the host has not written (`10_state.md` R12, `40_task_control.md` R81), none of the hazards of
`70_reset_and_hazards.md` section 3. The machine runs through all of them (R216); a claim that needs one
excluded carries it as a premise. -/

namespace Sys2Proof.Machine

/-- The block has stopped for good (R195). -/
abbrev Stopped (s : State) : Prop := s.fatal = true

/-- The argument registers a command reads in state `s` (R64), none where a check before the first
read refuses it. -/
def argsRead (i : Instr) (s : State) : List (Fin 6) :=
  match i with
  | .apiinit vm => if s.apiInit then [] else if vm then [0, 1] else [0]
  | .bdsetup t _ _ => if t < 16 then [0, 1, 2, 3, 4, 5] else []
  | .bdassign t =>
    match taskHandle t with
    | none => []
    | some t =>
      if s.rt[t].inUse = s.rt[t].numBD then []
      else if s.rt[t].numPtr = 2#2 then [0, 1, 2, 3] else [0, 2, 3]
  | .tcfg _ _ => [0]
  | .drdpatch _ => [0, 1]
  | .ginstall i => if i < 32 then [0, 1] else []
  | .tstart _ _ _ _ => []
  | .tstop _ => []
  | .tstat _ => []
  | .bdrelease _ => []
  | .bdreset _ => []
  | .bdget _ _ => []
  | .bdring _ => []
  | .bdinuse _ => []
  | .tseti _ _ _ => []
  | .szset _ _ _ => []
  | .tintclr _ => []
  | .tintstat _ => []
  | .tintpend _ => []
  | .tintsrc => []
  | .ginit => []
  | .girqen _ => []
  | .girqdis _ => []
  | .ghdone => []

/-- The command writes `MBAR`'s value somewhere: `TCFG` with an enable slot (R81). -/
def usesMbar (i : Instr) (s : State) : Bool :=
  decide (instrOp i = .tcfg) && decide (argReg s 0 ≠ 0#32)

/-- R12, R81: the command reads a register that nothing has written since reset. The spec calls that a
model fault; this model runs on with the value of logs 4 and 6 and names it here. -/
def readsUnwritten (i : Instr) (s : State) : Bool :=
  (argsRead i s).any (fun n => !s.argWritten[n]) || (usesMbar i s && !s.apiInit)

/-- The hazards of R218 to R228 that one move can commit. -/
inductive Hazard where
  /-- R218: a setup step on a Running task. -/
  | setupRunning
  /-- R219: re-enable of a task whose `EN` is 1. -/
  | reEnable
  /-- R220: ring re-initialised while the task runs or a live BD is the engine's. -/
  | ringUnderEngine
  /-- R58, R221: DRD words patched under a Running task. `DRDPATCH` names no task and the spec gives no
  way to tell whose words it patches; that the hazard is named while ANY task runs is the model's choice
  (log 30). -/
  | patchUnderEngine
  /-- R52, R222: a slot, a DRD list or a DRD word inside a ring's storage, two slots at one address, or
  a buffer pointer into the ring region. -/
  | aliasedAddress
  /-- R223: an auto-start chain into an Unconfigured task. -/
  | chainUnconfigured
  /-- R224: a later `BDSETUP` with another start slot. -/
  | staleStartSlot
  /-- R226 a: a handler returns and its source is still pending and unmasked. -/
  | unclearedSource
  /-- R226 b: a source unmasked with no handler. -/
  | unhandledSource
  /-- R226 c: a task started with its interrupt on while an earlier one is still pending. -/
  | stalePending
  /-- R228: a task stopped while the engine owns a live BD of its ring. -/
  | undrainedStop
  deriving DecidableEq, Repr

/-- The address lies in the storage of some ring (R52, R222). -/
def inSomeRing (s : State) (a : Word) : Bool :=
  (List.finRange 16).any fun t =>
    decide (s.rt[t].base ≠ 0#32 ∧ s.rt[t].base.toNat ≤ a.toNat ∧
      a.toNat < s.rt[t].base.toNat + s.rt[t].capBD.toNat * bdSize s.rt[t].numPtr)

/-- The address lies in the storage a first `BDSETUP` of `np` pointers gives task `t` (R103, R222). -/
def inFreshRing (s : State) (t : TaskId) (np : BitVec 2) (a : Word) : Bool :=
  decide (s.rt[t].base = 0#32 ∧ s.allocPtr.toNat ≤ a.toNat ∧
    a.toNat < s.allocPtr.toNat + (argReg s 5).toNat * bdSize np)

/-- The slots a `BDSETUP` of task `t` writes: all three on the first call, the `lastPtr` slot and the
recorded start slot later (R101). -/
def setupSlots (s : State) (t : TaskId) : List Word :=
  if s.rt[t].base = 0#32 then [argReg s 0, argReg s 1, argReg s 2] else [argReg s 1, s.rt[t].startReg]

/-- The device address lies in the ring region (R48, R222); buffer pointers are device addresses (R51). -/
def inRingRegion (s : State) (a : Word) : Bool :=
  decide (s.cfg.ringMemBase.toNat ≤ (cpu s a).toNat ∧
    (cpu s a).toNat < s.cfg.ringMemBase.toNat + s.cfg.ringMemSize.toNat)

/-- The word addresses of the DRD list itself (R140). -/
def drdListWords (s : State) : List Word :=
  (List.range (argReg s 1).toNat).map fun i => argReg s 0 + BitVec.ofNat 32 (4 * i)

/-- The engine owns a live BD of the ring of task `t` (R220, R228). -/
def engineOwns (s : State) (t : TaskId) : Bool :=
  (List.range s.rt[t].numBD.toNat).any fun i => bdReady (s.memRead (bdAddr s.rt[t] i))

/-- Task `t` runs, or the engine owns a live BD of its ring (R220). -/
def ringBusy (s : State) (t : TaskId) : Bool := tcrEn s.tcr[t] || engineOwns s t

/-- One hazard, if its condition holds. -/
def hazardIf (b : Bool) (h : Hazard) : List Hazard := if b then [h] else []

/-- The hazards a command commits in state `s`. Where the rules leave open when a hazard is met, and that
a command about to be refused is not excepted, is the model's choice (log 30). -/
def commandHazards (i : Instr) (s : State) : List Hazard :=
  match i with
  | .tstart t _ _ ie =>
    match taskHandle t with
    | none => []
    | some t => hazardIf (tcrEn s.tcr[t]) .reEnable ++
        hazardIf (ie && decide (s.ht[t.castLE (by decide : 16 ≤ 32)].fn = 0#32)) .unhandledSource ++
        hazardIf (ie && (iprValue s).getLsbD t.val) .stalePending
  | .bdsetup t np _ =>
    match taskHandle t with
    | none => []
    | some t => hazardIf (tcrEn s.tcr[t]) .setupRunning ++
        hazardIf (decide (s.rt[t].base ≠ 0#32) && ringBusy s t) .ringUnderEngine ++
        hazardIf (([argReg s 0, argReg s 1, argReg s 2] ++ setupSlots s t).any
          fun a => inSomeRing s a || inFreshRing s t np a) .aliasedAddress ++
        hazardIf (decide ¬(setupSlots s t).Nodup) .aliasedAddress ++
        hazardIf (decide (s.rt[t].base ≠ 0#32 ∧ argReg s 2 ≠ s.rt[t].startReg)) .staleStartSlot
  | .bdreset t =>
    match taskHandle t with
    | none => []
    | some t => hazardIf (ringBusy s t) .ringUnderEngine ++
        hazardIf (inSomeRing s s.rt[t].startReg) .aliasedAddress
  | .tcfg g _ => hazardIf (tcrEn s.tcr[globalTask g]) .setupRunning ++
      hazardIf (decide (argReg s 0 ≠ 0#32) && inSomeRing s (argReg s 0)) .aliasedAddress
  | .tseti t _ _ =>
    match taskHandle t with
    | none => []
    | some t => hazardIf (tcrEn s.tcr[t]) .setupRunning
  | .szset t _ _ =>
    match taskHandle t with
    | none => []
    | some t => hazardIf (tcrEn s.tcr[t]) .setupRunning
  | .drdpatch _ => hazardIf ((List.finRange 16).any fun t => tcrEn s.tcr[t]) .patchUnderEngine ++
      hazardIf ((drdListWords s ++ drdAddresses s.mem (argReg s 0) (argReg s 1).toNat).any
        (inSomeRing s)) .aliasedAddress
  | .tstop t =>
    match taskHandle t with
    | none => []
    | some t => hazardIf (engineOwns s t) .undrainedStop
  | .bdassign t =>
    match taskHandle t with
    | none => []
    | some t => hazardIf (inRingRegion s (argReg s 0) ||
        (decide (s.rt[t].numPtr = 2#2) && inRingRegion s (argReg s 1))) .aliasedAddress
  | .ghdone =>
    hazardIf (s.dmxWait && (effectivePending s).getLsbD s.dspId.toNat) .unclearedSource
  | .girqen i =>
    if h : i < 32 then hazardIf (isSource i && decide (s.ht[i].fn = 0#32)) .unhandledSource else []
  | .apiinit _ => []
  | .tstat _ => []
  | .bdrelease _ => []
  | .bdget _ _ => []
  | .bdring _ => []
  | .bdinuse _ => []
  | .tintclr _ => []
  | .tintstat _ => []
  | .tintpend _ => []
  | .tintsrc => []
  | .ginit => []
  | .girqdis _ => []
  | .ginstall _ => []

/-- The hazards the next move commits (R216: they are accepted, not faults). -/
def hazards (m : Input) (s : State) : List Hazard :=
  match m with
  | .cmd w =>
    match decode w with
    | .ok i => if s.fatal then [] else commandHazards i s
    | .error _ => []
  | .engine (.done t) =>
    hazardIf (tcrEn s.tcr[t] && tcrAse s.tcr[t] && !s.configured[autoStartTask s.tcr[t]])
      .chainUnconfigured
  | _ => []

/-- The next move of the schedule is clean: it commits no hazard and reads no unwritten register. -/
def cleanMove (m : Input) (s : State) : Bool :=
  (hazards m s).isEmpty &&
    match m with
    | .cmd w =>
      match decode w with
      | .ok i => s.fatal || !readsUnwritten i s
      | .error _ => true
    | _ => true

/-! ## Invariants -/

/-- Bytes of storage of a ring: `capBD * 4 * (1 + numPtr)` (R24 c). -/
def ringBytes (e : RingEntry) : Nat := e.capBD.toNat * bdSize e.numPtr

/-- R24 (a), (c), (d) for one ring entry; (c) in the stronger form that the storage lies below
`ALLOC_PTR`. -/
structure RingEntryOk (c : Config) (allocPtr : Word) (e : RingEntry) : Prop where
  inUse_le : e.inUse.toNat ≤ e.numBD.toNat
  unset_empty : e.base = 0#32 → e.numBD = 0#16
  numPtr_legal : e.base ≠ 0#32 → e.numPtr = 1#2 ∨ e.numPtr = 2#2
  cap_pos : e.base ≠ 0#32 → 1 ≤ e.capBD.toNat
  live_le_cap : e.base ≠ 0#32 → e.numBD.toNat ≤ e.capBD.toNat
  base_ge : e.base ≠ 0#32 → c.ringMemBase.toNat ≤ e.base.toNat
  base_aligned : e.base ≠ 0#32 → e.base.toNat % 4 = 0
  start_aligned : e.base ≠ 0#32 → e.startReg.toNat % 4 = 0
  end_le : e.base ≠ 0#32 → e.base.toNat + ringBytes e ≤ allocPtr.toNat
  cursors_live : 0 < e.numBD.toNat → e.wr.toNat < e.numBD.toNat ∧ e.rd.toNat < e.numBD.toNat ∧
    e.wr.toNat = (e.rd.toNat + e.inUse.toNat) % e.numBD.toNat
  cursors_empty : e.numBD.toNat = 0 → e.wr = 0#16 ∧ e.rd = 0#16

/-- R22, R24, R34, R124 (b): the allocator, the ring table and the engine's cursors. -/
structure RingInv (s : State) : Prop where
  config : s.cfg.wf
  alloc_ge : s.cfg.ringMemBase.toNat ≤ s.allocPtr.toNat
  alloc_le : s.allocPtr.toNat ≤ s.cfg.ringMemBase.toNat + s.cfg.ringMemSize.toNat
  alloc_aligned : s.allocPtr.toNat % 4 = 0
  entries : ∀ t : TaskId, RingEntryOk s.cfg s.allocPtr s.rt[t]
  disjoint : ∀ t u : TaskId, t ≠ u → s.rt[t].base ≠ 0#32 → s.rt[u].base ≠ 0#32 →
    s.rt[t].base.toNat + ringBytes s.rt[t] ≤ s.rt[u].base.toNat ∨
      s.rt[u].base.toNat + ringBytes s.rt[u] ≤ s.rt[t].base.toNat
  engine_cursor : ∀ t : TaskId, s.engCur[t].toNat < max s.rt[t].numBD.toNat 1

/-- R17, R18, R28, R202 (a): the interrupt words and the demultiplexer. -/
structure InterruptInv (s : State) : Prop where
  ipr_bits : s.ipr &&& ~~~iprMask = 0#32
  imr_bits : s.imr ||| srcMask = 0xFFFFFFFF#32
  snap_bits : s.dmxSnap &&& ~~~srcMask = 0#32
  idx_le : s.dmxIdx.toNat ≤ 32
  wait_active : s.dmxWait = true → s.dmxActive = true
  wait_idx : s.dmxWait = true → s.dmxIdx.toNat = s.dspId.toNat + 1
  wait_source : s.dmxWait = true → isSource s.dspId.toNat = true
  wait_handler : s.dmxWait = true → s.dspFn ≠ 0#32

/-- R14, R15, R196: the reserved TCR bits 14:13, 6 and 4 are 0, and a fatal stop has one of its two
reasons. -/
structure RegisterInv (s : State) : Prop where
  tcr_reserved : ∀ t : TaskId, s.tcr[t] &&& 0x6050#16 = 0#16
  fatal_reason : s.fatal = true → s.fatalReason = badNumPtr ∨ s.fatalReason = allocFail

/-- Everything the spec says always holds, with the memory's canonical form. -/
structure MachineInv (s : State) : Prop where
  rings : RingInv s
  interrupts : InterruptInv s
  registers : RegisterInv s
  memory : Memory.wf s.mem = true

/-! ## The terms the statements use -/

/-- `x` is one of the `n` bytes that start at `a` (addresses wrap modulo 2^32). -/
def inBytes (a : Word) (n : Nat) (x : Word) : Prop := (x - a).toNat < n

/-- One row of the opcode map as R65 prints it. -/
structure OpcodeRow where
  op : Op
  code : Byte
  format : Format
  pattern : Word
  mask : Word
  deriving DecidableEq, Repr

/-- The table of R65, copied cell by cell (its `match` column is `pattern`). -/
def printedOpcodeMap : List OpcodeRow :=
  [⟨.apiinit, 0x01#8, .v, 0x01000000#32, 0xFFFFFFFE#32⟩,
   ⟨.tstart, 0x10#8, .s, 0x10000000#32, 0xFF0000FC#32⟩,
   ⟨.tstop, 0x11#8, .t, 0x11000000#32, 0xFF00FFFF#32⟩,
   ⟨.tstat, 0x12#8, .t, 0x12000000#32, 0xFF00FFFF#32⟩,
   ⟨.bdsetup, 0x20#8, .b, 0x20000000#32, 0xFF0000FC#32⟩,
   ⟨.bdassign, 0x21#8, .t, 0x21000000#32, 0xFF00FFFF#32⟩,
   ⟨.bdrelease, 0x22#8, .t, 0x22000000#32, 0xFF00FFFF#32⟩,
   ⟨.bdreset, 0x23#8, .t, 0x23000000#32, 0xFF00FFFF#32⟩,
   ⟨.bdget, 0x24#8, .x, 0x24000000#32, 0xFF000000#32⟩,
   ⟨.bdring, 0x25#8, .t, 0x25000000#32, 0xFF00FFFF#32⟩,
   ⟨.bdinuse, 0x26#8, .t, 0x26000000#32, 0xFF00FFFF#32⟩,
   ⟨.tcfg, 0x30#8, .p, 0x30000000#32, 0xFF000000#32⟩,
   ⟨.tseti, 0x31#8, .i, 0x31000000#32, 0xFF00E0FE#32⟩,
   ⟨.drdpatch, 0x32#8, .d, 0x32000000#32, 0xFFFFFFE0#32⟩,
   ⟨.szset, 0x33#8, .z, 0x33000000#32, 0xFF00FFF0#32⟩,
   ⟨.tintclr, 0x40#8, .t, 0x40000000#32, 0xFF00FFFF#32⟩,
   ⟨.tintstat, 0x41#8, .t, 0x41000000#32, 0xFF00FFFF#32⟩,
   ⟨.tintpend, 0x42#8, .t, 0x42000000#32, 0xFF00FFFF#32⟩,
   ⟨.tintsrc, 0x43#8, .n, 0x43000000#32, 0xFFFFFFFF#32⟩,
   ⟨.ginit, 0x50#8, .n, 0x50000000#32, 0xFFFFFFFF#32⟩,
   ⟨.girqen, 0x51#8, .t, 0x51000000#32, 0xFF00FFFF#32⟩,
   ⟨.girqdis, 0x52#8, .t, 0x52000000#32, 0xFF00FFFF#32⟩,
   ⟨.ginstall, 0x53#8, .t, 0x53000000#32, 0xFF00FFFF#32⟩,
   ⟨.ghdone, 0x54#8, .n, 0x54000000#32, 0xFFFFFFFF#32⟩]

/-- The argument registers R64 lists for a command. -/
def listedArgs : Instr → List (Fin 6)
  | .apiinit vm => if vm then [0, 1] else [0]
  | .bdsetup _ _ _ => [0, 1, 2, 3, 4, 5]
  | .bdassign _ => [0, 1, 2, 3]
  | .tcfg _ _ => [0]
  | .drdpatch _ => [0, 1]
  | .ginstall _ => [0, 1]
  | .tstart _ _ _ _ => []
  | .tstop _ => []
  | .tstat _ => []
  | .bdrelease _ => []
  | .bdreset _ => []
  | .bdget _ _ => []
  | .bdring _ => []
  | .bdinuse _ => []
  | .tseti _ _ _ => []
  | .szset _ _ _ => []
  | .tintclr _ => []
  | .tintstat _ => []
  | .tintpend _ => []
  | .tintsrc => []
  | .ginit => []
  | .girqen _ => []
  | .girqdis _ => []
  | .ghdone => []

/-- Lines 2 to 4 of R100: the slots aligned, the counts 16 bits wide, `numBD` at most `maxBD`. -/
def SetupOperandsOk (s : State) : Prop :=
  (argReg s 0).toNat % 4 = 0 ∧ (argReg s 1).toNat % 4 = 0 ∧ (argReg s 2).toNat % 4 = 0 ∧
    (argReg s 4).toNat ≤ 0xFFFF ∧ (argReg s 5).toNat ≤ 0xFFFF ∧
    (argReg s 4).toNat ≤ (argReg s 5).toNat

/-- Line 9 of R100, on mathematical integers (R124 b): a first ring of `maxBD` BDs of `np` pointers
fits the rest of the ring region. -/
def RingFits (s : State) (np : BitVec 2) : Prop :=
  ((s.allocPtr.toNat : Int) - s.cfg.ringMemBase.toNat) + (argReg s 5).toNat * (4 * (1 + np.toNat)) ≤
    s.cfg.ringMemSize.toNat

/-- `i` is a source number (R190). -/
def SourceNumber (i : Nat) : Prop := i < 16 ∨ i = 28 ∨ i = 31

/-- The `i`-th entry of the DRD address list of `DRDPATCH` (R140). -/
def drdEntry (s : State) (i : Nat) : Word := s.memRead (argReg s 0 + BitVec.ofNat 32 (4 * i))

/-- Why a command returns `INVALID_ARG`: the table of R182, row by row. -/
def InvalidArgCause (s : State) : Instr → Prop
  | .tstart t ase ast _ => 16 ≤ t ∨ (ase = true ∧ 16 ≤ ast) ∨ ∃ u : TaskId, u.val = t ∧ s.configured[u] = false
  | .tstop t => 16 ≤ t
  | .tstat t => 16 ≤ t
  | .bdassign t => 16 ≤ t
  | .bdrelease t => 16 ≤ t
  | .bdinuse t => 16 ≤ t
  | .tseti t _ _ => 16 ≤ t
  | .szset t _ _ => 16 ≤ t
  | .tintstat i => 16 ≤ i
  | .tintpend i => 16 ≤ i
  | .bdsetup t np _ => 16 ≤ t ∨ ¬SetupOperandsOk s ∨ ((np = 1#2 ∨ np = 2#2) ∧ ∃ u : TaskId, u.val = t ∧
      if s.rt[u].base = 0#32 then argReg s 5 = 0#32
      else np ≠ s.rt[u].numPtr ∨ s.rt[u].capBD.toNat < (argReg s 4).toNat)
  | .bdreset t => 16 ≤ t ∨ ∃ u : TaskId, u.val = t ∧ s.rt[u].base = 0#32
  | .tcfg _ _ => (argReg s 0).toNat % 4 ≠ 0
  | .drdpatch _ => (argReg s 0).toNat % 4 ≠ 0 ∨ 0xFFFF < (argReg s 1).toNat ∨
      ∃ i < (argReg s 1).toNat, (drdEntry s i).toNat % 4 ≠ 0
  | .tintclr i => ¬SourceNumber i
  | .girqen i => ¬SourceNumber i
  | .girqdis i => ¬SourceNumber i
  | .ginstall i => 32 ≤ i
  | .ghdone => s.dmxWait = false
  | .apiinit _ => False
  | .bdget _ _ => False
  | .bdring _ => False
  | .tintsrc => False
  | .ginit => False

/-- The indices of the assigned and not yet released BDs of a ring, oldest first (R122). -/
def ringQueue (e : RingEntry) : List Nat :=
  (List.range e.inUse.toNat).map fun j => (e.rd.toNat + j) % e.numBD.toNat

/-- `x` lies in the storage of the ring `e` (R24 c). -/
def inStorage (e : RingEntry) (x : Word) : Prop :=
  e.base ≠ 0#32 ∧ e.base.toNat ≤ x.toNat ∧ x.toNat < e.base.toNat + ringBytes e

/-- The values the table of R32 gives; what it leaves unspecified is not here. -/
structure ResetValues (ringMemBase : Word) (s : State) : Prop where
  flags : s.apiInit = false ∧ s.glueInit = false ∧ s.fatal = false
  tcr : ∀ t : TaskId, s.tcr[t] = 0x0000#16
  ipr : iprValue s = 0x00000000#32
  imr : imrValue s = 0xFFFFFFFF#32
  sz : ∀ k : Fin 8, s.sz[k] = 0x00#8
  physOffset : s.physOffset = 0#32
  allocPtr : s.allocPtr = ringMemBase
  rt : ∀ t : TaskId, s.rt[t] = ⟨0#32, 0#16, 0#16, 0#2, 0#8, 0#32, 0#16, 0#16, 0#16⟩
  ht : ∀ i : Fin 32, s.ht[i] = ⟨0#32, 0#32⟩
  taskFlags : ∀ t : TaskId, s.runFlag[t] = false ∧ s.configured[t] = false
  demultiplexer : s.dmxActive = false ∧ s.dmxWait = false
  engine : ∀ t : TaskId, s.engCur[t] = 0#16
  tasks : ∀ t : TaskId, taskState s t = .unconfigured

/-- Where a move leaves the state `old` of task `t`: the table of R96, with reset (R210). -/
def nextTaskState (s : State) (t : TaskId) (m : Input) : TaskState :=
  let old := taskState s t
  let off := if s.configured[t] then TaskState.stopped else .unconfigured
  match m with
  | .reset => .unconfigured
  | .cmd w =>
    if s.fatal then old
    else
      match decode w with
      | .ok (.tcfg g _) =>
        if g % 16 = t.val ∧ (argReg s 0).toNat % 4 = 0 ∧ old = .unconfigured then .stopped else old
      | .ok (.tstart u ase ast _) =>
        if u = t.val ∧ (ase = true → ast < 16) ∧ old = .stopped then .running else old
      | .ok (.tstop u) => if u = t.val ∧ old = .running then off else old
      | _ => old
  | .engine (.done u) =>
    if tcrEn s.tcr[u] = true ∧ tcrAse s.tcr[u] = true ∧ (tcrAst s.tcr[u]).toNat = t.val then .running
    else old
  | .engine (.selfDis u) => if u = t ∧ old = .running then off else old
  | _ => old

end Sys2Proof.Machine
end

