-- ==== Sys2Proof/Certificates/Slice0/Obligations.lean ====
section
/-! DEFINITION. The statements for the provers. Result codes are written as the 32-bit patterns of
`60_exceptions.md` R180, masks and offsets as the numbers of the rule cited. -/

open Sys2Proof Sys2Proof.Machine

/-! ## Encoding (`30_encoding.md`) -/

/-- Every command whose operands fit its format is read back from its word. -/
def Obligations.EncodedCommandDecodesToItself : Prop :=
  ∀ i : Instr, i.wellFormed = true → decode (encode i) = .ok i

/-- A command has one spelling: a word that decodes to it is its encoding. -/
def Obligations.DecodedWordIsItsEncoding : Prop :=
  ∀ (w : Word) (i : Instr), decode w = .ok i → i.wellFormed = true ∧ encode i = w

/-- R65: the printed table is the decoder's, row by row; a word spells a command exactly when
`w & mask = match`; no word matches two rows. -/
def Obligations.OpcodeMapIsThePrintedTable : Prop :=
  printedOpcodeMap.map OpcodeRow.op = opList ∧
  (∀ r ∈ printedOpcodeMap, opCode r.op = r.code ∧ opFormat r.op = r.format ∧
    r.mask = (0xFF000000#32 ||| mbzBits r.format)) ∧
  (∀ r ∈ printedOpcodeMap, ∀ w : Word,
    (∃ i, decode w = .ok i ∧ instrOp i = r.op) ↔ w &&& r.mask = r.pattern) ∧
  (∀ r ∈ printedOpcodeMap, ∀ r' ∈ printedOpcodeMap, ∀ w : Word,
    w &&& r.mask = r.pattern → w &&& r'.mask = r'.pattern → r = r')

/-- R61, R62, R63: the operands are the fields of the word, as numbers; only `policy` is signed. -/
def Obligations.OperandsAreTheFieldsOfTheWord : Prop :=
  ∀ (w : Word) (i : Instr), decode w = .ok i →
    let tid := w.toNat / 2 ^ 16 % 2 ^ 8
    match i with
    | .apiinit vm => vm = w.toNat.testBit 0
    | .tstart t ase ast ie =>
      t = tid ∧ ast = w.toNat / 2 ^ 8 % 2 ^ 8 ∧ ase = w.toNat.testBit 1 ∧ ie = w.toNat.testBit 0
    | .bdsetup t np apiConfig =>
      t = tid ∧ apiConfig.toNat = w.toNat / 2 ^ 8 % 2 ^ 8 ∧ np.toNat = w.toNat % 2 ^ 2
    | .bdget t idx => t = tid ∧ idx = w.toNat % 2 ^ 16
    | .tcfg g policy =>
      g = tid ∧ policy = (w.toNat % 2 ^ 16 : Int) - (if w.toNat.testBit 15 then 2 ^ 16 else 0)
    | .tseti t init hold =>
      t = tid ∧ init.toNat = w.toNat / 2 ^ 8 % 2 ^ 5 ∧ hold = w.toNat.testBit 0
    | .drdpatch init => init.toNat = w.toNat % 2 ^ 5
    | .szset t src dst => t = tid ∧ src.toNat = w.toNat / 2 ^ 2 % 2 ^ 2 ∧ dst.toNat = w.toNat % 2 ^ 2
    | .tstop t => t = tid
    | .tstat t => t = tid
    | .bdassign t => t = tid
    | .bdrelease t => t = tid
    | .bdreset t => t = tid
    | .bdring t => t = tid
    | .bdinuse t => t = tid
    | .tintclr n => n = tid
    | .tintstat n => n = tid
    | .tintpend n => n = tid
    | .girqen n => n = tid
    | .girqdis n => n = tid
    | .ginstall n => n = tid
    | .tintsrc => True
    | .ginit => True
    | .ghdone => True

/-- Words of `95_test_vectors.md`, one of each family. -/
def Obligations.WordsOfTheVectorsDecode : Prop :=
  decode 0x01000001#32 = .ok (.apiinit true) ∧
  decode 0x10030503#32 = .ok (.tstart 3 true 5 true) ∧
  decode 0x20010002#32 = .ok (.bdsetup 1 2#2 0#8) ∧
  decode 0x24FFFFFF#32 = .ok (.bdget 255 65535) ∧
  decode 0x3002FFFD#32 = .ok (.tcfg 2 (-3)) ∧
  decode 0x31040901#32 = .ok (.tseti 4 9#5 true) ∧
  decode 0x33030006#32 = .ok (.szset 3 1#2 2#2) ∧
  decode 0x401C0000#32 = .ok (.tintclr 28) ∧
  decode 0x53140000#32 = .ok (.ginstall 20)

/-- R67: a word that matches no row leaves `INVALID_ARG` in `RES` and changes nothing else; `CMD`
holds what the host wrote. -/
def Obligations.IllegalWordOnlyWritesInvalidArg : Prop :=
  (∀ (s : State) (w : Word) (rest : List Input), s.inputs = .cmd w :: rest → s.fatal = false →
    (∀ r ∈ printedOpcodeMap, w &&& r.mask ≠ r.pattern) →
    ∃ c : Word, step s = .next { s with inputs := rest, cmd := c, res := 0xFFFFFFFE#32 }) ∧
  (∀ r ∈ printedOpcodeMap, 0x00000000#32 &&& r.mask ≠ r.pattern ∧ 0xFFFFFFFF#32 &&& r.mask ≠ r.pattern)

/-! ## The step -/

/-- A write to `CMD` runs the decoded command (R60); that `CMD` keeps the word is the model's
(log 5), that the schedule loses its first entry too (log 1). -/
def Obligations.StepRunsTheDecodedCommand : Prop :=
  ∀ (s : State) (w : Word) (rest : List Input) (i : Instr), s.inputs = .cmd w :: rest →
    s.fatal = false → decode w = .ok i → step s = exec i { s with inputs := rest, cmd := w }

/-- The host's write of an argument register (R10), and the idle step (log 3). -/
def Obligations.StepWritesArgumentsAndIdles : Prop :=
  (∀ (s : State) (n : Fin 6) (v : Word) (rest : List Input), s.inputs = .arg n v :: rest →
    step s = .next { s with
      inputs := rest, args := s.args.set n v, argWritten := s.argWritten.set n true }) ∧
  (∀ s : State, s.inputs = [] → step s = .next s)

/-- Every command ends in a next state, in every state (R205, R216; that the fatal stop of R195 is one
too is log 13, that a read of an unwritten register does not stop is logs 4 and 6); the machine is
never refused; a step stops only at a store of the environment that reaches a register of the register
block, whose first stored address the fault names (log 15). -/
def Obligations.EveryCommandCompletes : Prop :=
  (∀ (i : Instr) (s : State), ∃ s', exec i s = .next s') ∧
  (∀ (s : State) (r : Refusal), step s ≠ .refused r) ∧
  (∀ (s : State) (f : Fault), step s = .fault f → s.apiInit = true ∧
    ∃ (a x : Word) (rest : List Input), f = .registerBlockWrite x ∧
      (let o := (x - (s.mbar + 0x1200#32)).toNat
       (0x14 ≤ o ∧ o < 0x5C) ∨ (0x60 ≤ o ∧ o < 0x68)) ∧
      ((∃ b, s.inputs = .storeByte a b :: rest) ∧ x = a ∨
        (∃ v, s.inputs = .storeWord a v :: rest) ∧ inBytes a 4 x))

/-- The fatal stop (R195, as a next state: log 13): commands are ignored, the engine and the
demultiplexer go on, only reset ends it. -/
def Obligations.FatalStopsCommandsUntilReset : Prop :=
  (∀ s : State, panicLine s = s.fatal) ∧
  (∀ (i : Instr) (s : State), s.fatal = true → exec i s = .next s) ∧
  (∀ (s : State) (w : Word) (rest : List Input), s.inputs = .cmd w :: rest → s.fatal = true →
    step s = .next { s with inputs := rest }) ∧
  (∀ s s' : State, step s = .next s' → s.fatal = true → s'.fatal = false →
    ∃ rest, s.inputs = .reset :: rest) ∧
  (∀ (e : EngineEvent) (s : State) (b : Bool),
    engineMove e { s with fatal := b } =
      (engineMove e s).map fun s' => { s' with fatal := b }) ∧
  (∀ (s : State) (b : Bool),
    demuxStep { s with fatal := b } = (demuxStep s).map fun s' => { s' with fatal := b })

/-- R196: exactly two causes, both `BDSETUP` after lines 1 to 4 of R100 and before any write. -/
def Obligations.FatalHasTwoCauses : Prop :=
  ∀ (i : Instr) (s s' : State), s.fatal = false → exec i s = .next s' →
    (s'.fatal = true ↔ ∃ (t : TaskId) (np : BitVec 2) (c : Byte), i = .bdsetup t.val np c ∧
      SetupOperandsOk s ∧
      if np = 1#2 ∨ np = 2#2 then
        s.rt[t].base = 0#32 ∧ argReg s 5 ≠ 0#32 ∧ ¬RingFits s np
      else True) ∧
    (s'.fatal = true → ∀ (t : TaskId) (np : BitVec 2) (c : Byte), i = .bdsetup t.val np c →
      s' = { s with fatal := true, fatalReason := if np = 1#2 ∨ np = 2#2 then 2#2 else 1#2 })

/-- R32: what reset leaves, from any state, and what the model starts from. -/
def Obligations.ResetGivesTheTable : Prop :=
  (∀ (s : State) (rest : List Input), s.inputs = .reset :: rest →
    ∃ s', step s = .next s' ∧ s'.cfg = s.cfg ∧ ResetValues s.cfg.ringMemBase s') ∧
  ResetValues State.reset.cfg.ringMemBase State.reset

/-- The state after reset has every invariant, for every choice of the parameters that R48 allows. -/
def Obligations.ResetStateHasTheInvariants : Prop :=
  (∀ c : Config, c.wf → MachineInv (State.resetWith c)) ∧ MachineInv State.reset

/-! ## Invariants of every step -/

/-- R24, R34, R124 (b): every move keeps the ring table sound, and only reset takes a ring away.
The premise on the region's end is log 12. -/
def Obligations.StepKeepsTheRingTable : Prop :=
  ∀ s s' : State, RingInv s → step s = .next s' →
    RingInv s' ∧ ∀ t : TaskId, s'.rt[t].base ≠ s.rt[t].base →
      s.rt[t].base = 0#32 ∨ ∃ rest, s.inputs = .reset :: rest

/-- R17, R18, R28, R202 (a): every move keeps the interrupt words and the demultiplexer sound. -/
def Obligations.StepKeepsTheInterruptState : Prop :=
  ∀ s s' : State, InterruptInv s → step s = .next s' → InterruptInv s'

/-- R15, R14: every move keeps the reserved TCR bits 0 and the fatal reason legal; and it keeps memory in
its canonical form, which is the model's own representation (log 10). -/
def Obligations.StepKeepsRegistersAndMemoryForm : Prop :=
  ∀ s s' : State, step s = .next s' →
    (RegisterInv s → RegisterInv s') ∧ (Memory.wf s.mem = true → Memory.wf s'.mem = true)

/-- R96: every move leaves every task in the state of the transition table, and `CFG` is cleared by
reset only. -/
def Obligations.TaskStatesFollowTheTable : Prop :=
  ∀ (s s' : State) (m : Input) (rest : List Input) (t : TaskId),
    s.inputs = m :: rest → step s = .next s' →
      taskState s' t = nextTaskState s t m ∧
      (s.configured[t] = true → s'.configured[t] = true ∨ m = .reset)

/-! ## Initialisation and task control (`40_task_control.md`) -/

/-- R80: the first `APIINIT` records the bases, every later one is refused; `dev` and `cpu` undo each
other whatever the offset. -/
def Obligations.ApiinitRecordsTheBasesOnce : Prop :=
  ∀ (vm : Bool) (s : State), s.fatal = false →
    (s.apiInit = false → exec (.apiinit vm) s = .next { s with
      mbar := argReg s 0
      physOffset := if vm then argReg s 1 - argReg s 0 else 0#32
      apiInit := true
      res := 0xFFFFFFFF#32 }) ∧
    (s.apiInit = true → exec (.apiinit vm) s = .next { s with res := 0xFFFFFFFC#32 }) ∧
    ∀ a : Word, cpu s (dev s a) = a ∧ dev s (cpu s a) = a

/-- R82: `TSTART` sets `EN`, rewrites `ASE` and `AST` when asked, sets or clears one mask bit. Under
`START_ALWAYS_WRITES_AS` it always rewrites them, with `ASE <- ase` (R83 a); that `AST` then takes the
low four bits of any `ast` when `ase` = 0 is the model's reading (log 19). -/
def Obligations.TstartStartsAConfiguredTask : Prop :=
  ∀ (ase : Bool) (ast : Nat) (ie : Bool) (s : State), s.fatal = false →
    (∀ t : TaskId, s.configured[t] = true → (ase = true → ast < 16) →
      ∃ (v : Half) (m : Word),
        exec (.tstart t.val ase ast ie) s = .next { s with
          imr := m
          tcr := s.tcr.set t v
          runFlag := s.runFlag.set t true
          res := 0xFFFFFFFF#32 } ∧
        (∀ k < 16, v.getLsbD k =
          if k = 15 then true
          else if (ase = true ∨ s.cfg.startAlwaysWritesAs = true) ∧ k = 7 then ase
          else if (ase = true ∨ s.cfg.startAlwaysWritesAs = true) ∧ k < 4 then ast.testBit k
          else s.tcr[t].getLsbD k) ∧
        ∀ k < 32, (imrValue { s with imr := m }).getLsbD k =
          if k = t.val then !ie else (imrValue s).getLsbD k) ∧
    (∀ t : Nat, 16 ≤ t → exec (.tstart t ase ast ie) s = .next { s with res := 0xFFFFFFFE#32 }) ∧
    (∀ t : TaskId, (ase = true ∧ 16 ≤ ast) ∨ s.configured[t] = false →
      exec (.tstart t.val ase ast ie) s = .next { s with res := 0xFFFFFFFE#32 })

/-- R85: `TSTOP` clears `EN` and the advisory flag and nothing else. -/
def Obligations.TstopClearsTheEnableBit : Prop :=
  ∀ s : State, s.fatal = false →
    (∀ t : TaskId, ∃ v : Half,
      exec (.tstop t.val) s = .next { s with
        tcr := s.tcr.set t v, runFlag := s.runFlag.set t false, res := 0xFFFFFFFF#32 } ∧
      ∀ k < 16, v.getLsbD k = if k = 15 then false else s.tcr[t].getLsbD k) ∧
    ∀ t : Nat, 16 ≤ t → exec (.tstop t) s = .next { s with res := 0xFFFFFFFE#32 }

/-- R87: `TSTAT` reports `EN` in `RES` and the advisory flag in `RET1`. -/
def Obligations.TstatReportsEnableAndFlag : Prop :=
  ∀ s : State, s.fatal = false →
    (∀ t : TaskId, exec (.tstat t.val) s = .next { s with
      res := if s.tcr[t].getLsbD 15 then 1#32 else 0#32
      ret1 := if s.runFlag[t] then 1#32 else 0#32 }) ∧
    ∀ t : Nat, 16 ≤ t → exec (.tstat t) s = .next { s with res := 0xFFFFFFFE#32 }

/-! ## The BD ring manager (`41_bd_ring.md`) -/

/-- R100, lines 1 to 4, 7, 16 and 17: the refusals of `BDSETUP`. -/
def Obligations.BdsetupRefusesBadOperands : Prop :=
  ∀ (np : BitVec 2) (c : Byte) (s : State), s.fatal = false →
    (∀ t : Nat, 16 ≤ t → exec (.bdsetup t np c) s = .next { s with res := 0xFFFFFFFE#32 }) ∧
    (∀ t : TaskId, ¬SetupOperandsOk s →
      exec (.bdsetup t.val np c) s = .next { s with res := 0xFFFFFFFE#32 }) ∧
    (∀ t : TaskId, np = 1#2 ∨ np = 2#2 → s.rt[t].base = 0#32 → argReg s 5 = 0#32 →
      exec (.bdsetup t.val np c) s = .next { s with res := 0xFFFFFFFE#32 }) ∧
    (∀ t : TaskId, np = 1#2 ∨ np = 2#2 → s.rt[t].base ≠ 0#32 →
      np ≠ s.rt[t].numPtr ∨ s.rt[t].capBD.toNat < (argReg s 4).toNat →
      exec (.bdsetup t.val np c) s = .next { s with res := 0xFFFFFFFE#32 })

/-- R100 on the first call for a task, R103, R104: the ring gets the storage at `ALLOC_PTR`; the start
slot is written last; no byte but the three slots and the live BDs changes. -/
def Obligations.BdsetupFirstCallAllocates : Prop :=
  ∀ (t : TaskId) (np : BitVec 2) (c : Byte) (s : State), s.fatal = false → SetupOperandsOk s →
    np = 1#2 ∨ np = 2#2 → s.rt[t].base = 0#32 → argReg s 5 ≠ 0#32 → RingFits s np →
    let e : RingEntry :=
      { base := s.allocPtr, numBD := (argReg s 4).setWidth 16, capBD := (argReg s 5).setWidth 16,
        numPtr := np, apiConfig := c, startReg := argReg s 2, inUse := 0#16, wr := 0#16, rd := 0#16 }
    ∃ m : Memory,
      exec (.bdsetup t.val np c) s = .next { s with
        rt := s.rt.set t e
        allocPtr := s.allocPtr + BitVec.ofNat 32 ((argReg s 5).toNat * (4 * (1 + np.toNat)))
        engCur := s.engCur.set t 0#16
        mem := m
        res := 0xFFFFFFFF#32 } ∧
      m.readWord (argReg s 2) = dev s s.allocPtr ∧
      ∀ x : Word, ¬inBytes (argReg s 0) 4 x → ¬inBytes (argReg s 1) 4 x → ¬inBytes (argReg s 2) 4 x →
        (∀ i < (argReg s 4).toNat, ¬inBytes (bdAddr e i) (4 * (1 + np.toNat)) x) →
        m.readByte x = s.mem.readByte x

/-- R100, R101 on a later call: only the count, the cursors and the length change; `A0`, `A2`, `A5`
and `apiConfig` are ignored; no byte but the `lastPtr` slot, the recorded start slot and the live BDs
changes. -/
def Obligations.BdsetupLaterCallReusesTheRing : Prop :=
  ∀ (t : TaskId) (np : BitVec 2) (c : Byte) (s : State), s.fatal = false → SetupOperandsOk s →
    np = 1#2 ∨ np = 2#2 → s.rt[t].base ≠ 0#32 → np = s.rt[t].numPtr →
    (argReg s 4).toNat ≤ s.rt[t].capBD.toNat →
    let e : RingEntry :=
      { s.rt[t] with inUse := 0#16, numBD := (argReg s 4).setWidth 16, wr := 0#16, rd := 0#16 }
    ∃ m : Memory,
      exec (.bdsetup t.val np c) s = .next { s with
        rt := s.rt.set t e, engCur := s.engCur.set t 0#16, mem := m, res := 0xFFFFFFFF#32 } ∧
      m.readWord e.startReg = dev s e.base ∧
      ∀ x : Word, ¬inBytes (argReg s 1) 4 x → ¬inBytes e.startReg 4 x →
        (∀ i < (argReg s 4).toNat, ¬inBytes (bdAddr e i) (4 * (1 + np.toNat)) x) →
        m.readByte x = s.mem.readByte x

/-- R104, R105, R106: after a successful `BDSETUP` whose slots are distinct words outside the ring, the
slots hold the device addresses of the base and of the last live BD, and every live BD holds the
caller's status and null pointers. -/
def Obligations.BdsetupInitialisesTheRing : Prop :=
  ∀ (t : TaskId) (np : BitVec 2) (c : Byte) (s s' : State), RingInv s → s.fatal = false →
    exec (.bdsetup t.val np c) s = .next s' → s'.fatal = false → s'.res = 0xFFFFFFFF#32 →
    let e := s'.rt[t]
    argReg s 1 ≠ e.startReg →
    (∀ x, inStorage e x → ¬inBytes (argReg s 1) 4 x ∧ ¬inBytes e.startReg 4 x) →
    s'.mem.readWord e.startReg = dev s e.base ∧
    s'.mem.readWord (argReg s 1) =
      dev s e.base + BitVec.ofNat 32 (4 * (1 + np.toNat)) * (argReg s 4 - 1#32) ∧
    (∀ i < (argReg s 4).toNat,
      s'.mem.readWord (bdAddr e i) = argReg s 3 ∧ s'.mem.readWord (bdAddr e i + 4#32) = 0#32 ∧
      (np = 2#2 → s'.mem.readWord (bdAddr e i + 8#32) = 0#32)) ∧
    (s.rt[t].base = 0#32 → argReg s 0 ≠ argReg s 1 → argReg s 0 ≠ argReg s 2 →
      (∀ x, inStorage e x → ¬inBytes (argReg s 0) 4 x) →
      s'.mem.readWord (argReg s 0) = dev s e.base)

/-- R22, R123: `ALLOC_PTR` only rises, only when a `BDSETUP` gives a task its first ring, and the base
of a ring never changes again; reset alone starts over. -/
def Obligations.RingStorageIsAllocatedOnce : Prop :=
  ∀ (s s' : State) (m : Input) (rest : List Input), RingInv s → s.inputs = m :: rest →
    step s = .next s' →
    (m = .reset → s'.allocPtr = s.cfg.ringMemBase) ∧
    (m ≠ .reset → s.allocPtr.toNat ≤ s'.allocPtr.toNat ∧
      (∀ t : TaskId, s.rt[t].base ≠ 0#32 → s'.rt[t].base = s.rt[t].base) ∧
      (s'.allocPtr ≠ s.allocPtr → ∃ (w : Word) (t : TaskId) (np : BitVec 2) (c : Byte),
        m = .cmd w ∧ decode w = .ok (.bdsetup t.val np c) ∧ s.rt[t].base = 0#32 ∧
          s'.rt[t].base = s.allocPtr))

/-- R107: the BD at the write cursor gets the pointers and a status word with `READY` set; the cursor
and the count advance; the two errors in their order. -/
def Obligations.BdassignFillsTheNextBd : Prop :=
  ∀ s : State, s.fatal = false →
    (∀ t : Nat, 16 ≤ t → exec (.bdassign t) s = .next { s with res := 0xFFFFFFFE#32 }) ∧
    ∀ t : TaskId,
      let e := s.rt[t]
      let a := bdAddr e e.wr.toNat
      (e.inUse = e.numBD → exec (.bdassign t.val) s = .next { s with res := 0xFFFFFFFD#32 }) ∧
      (e.inUse ≠ e.numBD → 0x03FFFFFF < (argReg s 2).toNat →
        exec (.bdassign t.val) s = .next { s with res := 0xFFFFFFFB#32 }) ∧
      (e.inUse ≠ e.numBD → (argReg s 2).toNat ≤ 0x03FFFFFF →
        ∃ m : Memory,
          exec (.bdassign t.val) s = .next { s with
            rt := s.rt.set t { e with
              wr := BitVec.ofNat 16 ((e.wr.toNat + 1) % e.numBD.toNat), inUse := e.inUse + 1#16 }
            mem := m
            res := e.wr.setWidth 32 } ∧
          m.readWord a = (0x40000000#32 ||| (argReg s 3 &&& 0x3C000000#32) ||| argReg s 2) ∧
          m.readWord (a + 4#32) = argReg s 0 ∧
          (e.numPtr = 2#2 → m.readWord (a + 8#32) = argReg s 1) ∧
          ∀ x : Word, ¬inBytes a (if e.numPtr = 2#2 then 12 else 8) x →
            m.readByte x = s.mem.readByte x)

/-- R111: the oldest BD is released once the engine has cleared its `READY` bit; its status is
reported; memory is only read; the two errors in their order. -/
def Obligations.BdreleaseReturnsTheOldestBd : Prop :=
  ∀ s : State, s.fatal = false →
    (∀ t : Nat, 16 ≤ t → exec (.bdrelease t) s = .next { s with res := 0xFFFFFFFE#32 }) ∧
    ∀ t : TaskId,
      let e := s.rt[t]
      let status := s.memRead (bdAddr e e.rd.toNat)
      (e.inUse = 0#16 → exec (.bdrelease t.val) s = .next { s with res := 0xFFFFFFFA#32 }) ∧
      (e.inUse ≠ 0#16 → status.getLsbD 30 = true →
        exec (.bdrelease t.val) s = .next { s with res := 0xFFFFFFF9#32 }) ∧
      (e.inUse ≠ 0#16 → status.getLsbD 30 = false →
        exec (.bdrelease t.val) s = .next { s with
          rt := s.rt.set t { e with
            rd := BitVec.ofNat 16 ((e.rd.toNat + 1) % e.numBD.toNat), inUse := e.inUse - 1#16 }
          ret1 := status
          res := e.rd.setWidth 32 })

/-- R115: the cursors and the count return to 0, the start slot is rewritten last, the live BDs are
cleared (where neither the slot nor the top of the address space lies in them), nothing else changes. -/
def Obligations.BdresetEmptiesTheRing : Prop :=
  ∀ s : State, s.fatal = false →
    (∀ t : Nat, 16 ≤ t → exec (.bdreset t) s = .next { s with res := 0xFFFFFFFE#32 }) ∧
    ∀ t : TaskId,
      let e := s.rt[t]
      (e.base = 0#32 → exec (.bdreset t.val) s = .next { s with res := 0xFFFFFFFE#32 }) ∧
      (e.base ≠ 0#32 →
        ∃ m : Memory,
          exec (.bdreset t.val) s = .next { s with
            rt := s.rt.set t { e with inUse := 0#16, wr := 0#16, rd := 0#16 }
            engCur := s.engCur.set t 0#16
            mem := m
            res := 0xFFFFFFFF#32 } ∧
          m.readWord e.startReg = dev s e.base ∧
          (∀ x : Word, ¬inBytes e.startReg 4 x →
            (∀ i < e.numBD.toNat, ¬inBytes (bdAddr e i) (if e.numPtr = 2#2 then 12 else 8) x) →
            m.readByte x = s.mem.readByte x) ∧
          (e.numPtr = 1#2 ∨ e.numPtr = 2#2 →
            e.base.toNat + e.numBD.toNat * (4 * (1 + e.numPtr.toNat)) ≤ 2 ^ 32 →
            (∀ x, inBytes e.base (e.numBD.toNat * (4 * (1 + e.numPtr.toNat))) x →
              ¬inBytes e.startReg 4 x) →
            ∀ i < e.numBD.toNat,
              m.readWord (bdAddr e i) = 0#32 ∧ m.readWord (bdAddr e i + 4#32) = 0#32 ∧
              (e.numPtr = 2#2 → m.readWord (bdAddr e i + 8#32) = 0#32)))

/-- R118, R119, R120: the pure accessors. -/
def Obligations.RingAccessorsOnlyWriteRes : Prop :=
  ∀ s : State, s.fatal = false →
    (∀ t idx : Nat, 16 ≤ t → exec (.bdget t idx) s = .next { s with res := 0#32 }) ∧
    (∀ t : Nat, 16 ≤ t → exec (.bdring t) s = .next { s with res := 0#32 }) ∧
    (∀ t : Nat, 16 ≤ t → exec (.bdinuse t) s = .next { s with res := 0xFFFFFFFE#32 }) ∧
    ∀ t : TaskId,
      let e := s.rt[t]
      (∀ idx : Nat, exec (.bdget t.val idx) s = .next { s with
        res := if e.base = 0#32 ∨ e.numBD.toNat ≤ idx then 0#32
          else e.base + BitVec.ofNat 32 (idx * (4 * (1 + e.numPtr.toNat))) }) ∧
      exec (.bdring t.val) s = .next { s with res := e.base } ∧
      exec (.bdinuse t.val) s = .next { s with res := BitVec.ofNat 32 e.inUse.toNat }

/-- R121, R122: the assigned and not yet released BDs of a ring are a queue of distinct live indices:
`BDASSIGN` appends the index it returns, `BDRELEASE` takes the oldest, a setup or reset empties it, a
failed or other command leaves it. -/
def Obligations.RingIsAFifoQueue : Prop :=
  ∀ (i : Instr) (s s' : State) (t : TaskId), RingInv s → s.fatal = false → exec i s = .next s' →
    (ringQueue s.rt[t]).Nodup ∧ (∀ j ∈ ringQueue s.rt[t], j < s.rt[t].numBD.toNat) ∧
    (i = .bdassign t.val → ringQueue s'.rt[t] =
      if s'.res.msb then ringQueue s.rt[t] else ringQueue s.rt[t] ++ [s'.res.toNat]) ∧
    (i = .bdrelease t.val → ringQueue s.rt[t] =
      if s'.res.msb then ringQueue s'.rt[t] else s'.res.toNat :: ringQueue s'.rt[t]) ∧
    ((∃ np c, i = .bdsetup t.val np c) ∨ i = .bdreset t.val → s'.fatal = false →
      ringQueue s'.rt[t] = if s'.res = 0xFFFFFFFF#32 then [] else ringQueue s.rt[t]) ∧
    (i ≠ .bdassign t.val → i ≠ .bdrelease t.val → (∀ np c, i ≠ .bdsetup t.val np c) →
      i ≠ .bdreset t.val → ringQueue s'.rt[t] = ringQueue s.rt[t])

/-- `BDDRAIN` (R71, R112 e, R229): whatever the engine and the demultiplexer do between its polls, in at
most `inUse + 1` polls it returns the released indices in FIFO order and stops at empty or busy; no
other ring entry changes; `CMD` holds the last poll (log 5). With nobody moving between the polls it
changes only that ring entry, the result registers and `CMD`. That the polls come with lists of the
others' moves is the model's form (log 26). -/
def Obligations.BddrainReleasesInOrder : Prop :=
  ∀ (t : TaskId) (env : List (List Input)) (s : State), RingInv s → s.fatal = false →
    s.rt[t].inUse.toNat < env.length →
    (∀ others ∈ env, ∀ m ∈ others, m = .demux ∨ ∃ e, m = .engine e) →
    ∃ (indices : List Word) (s' : State), bdDrain t.val env s = .next (indices, s') ∧
      (s'.res = 0xFFFFFFFA#32 ∨ s'.res = 0xFFFFFFF9#32) ∧
      indices.map BitVec.toNat ++ ringQueue s'.rt[t] = ringQueue s.rt[t] ∧
      (s'.res = 0xFFFFFFFA#32 → s'.rt[t].inUse = 0#16) ∧
      (∀ u : TaskId, u ≠ t → s'.rt[u] = s.rt[u]) ∧ s'.cmd = encode (.bdrelease t.val) ∧
      ((∀ others ∈ env, others = []) →
        s' = { s with rt := s.rt.set t s'.rt[t], res := s'.res, ret1 := s'.ret1, cmd := s'.cmd })

/-- R121: a `BDASSIGN`, a `BDRELEASE` or an `E_BDDONE` of one task leaves every other ring, its entry
and its storage, alone. -/
def Obligations.RingsAreIndependent : Prop :=
  ∀ (s s' : State) (t u : TaskId), RingInv s → u ≠ t →
    (exec (.bdassign t.val) s = .next s' ∨ exec (.bdrelease t.val) s = .next s' ∨
      ∃ status, engineMove (.bdDone t status) s = some s') →
    s'.rt[u] = s.rt[u] ∧ s'.engCur[u] = s.engCur[u] ∧
      ∀ x, inStorage s.rt[u] x → s'.mem.readByte x = s.mem.readByte x

/-! ## The TCR configurator (`42_tcr_config.md`) -/

/-- R130: `TCFG` marks the task configured, writes its auto-start fields by the policy and, where a slot
is given, the device address of its TCR. -/
def Obligations.TcfgConfiguresTheTask : Prop :=
  ∀ (g : Nat) (p : Int) (s : State), s.fatal = false →
    ((argReg s 0).toNat % 4 ≠ 0 → exec (.tcfg g p) s = .next { s with res := 0xFFFFFFFE#32 }) ∧
    ∀ t : TaskId, (argReg s 0).toNat % 4 = 0 → t.val = g % 16 →
      ∃ (v : Half) (m : Memory),
        exec (.tcfg g p) s = .next { s with
          runFlag := s.runFlag.set t false
          configured := s.configured.set t true
          tcr := s.tcr.set t v
          mem := m
          res := BitVec.ofNat 32 t.val } ∧
        (∀ k < 16, v.getLsbD k =
          if k = 7 then decide (-1 ≤ p ∧ p < 16)
          else if k < 4 then (if 0 ≤ p ∧ p < 16 then p.toNat else t.val).testBit k
          else s.tcr[t].getLsbD k) ∧
        (argReg s 0 = 0#32 → m = s.mem) ∧
        (argReg s 0 ≠ 0#32 →
          m.readWord (argReg s 0) =
            s.mbar + 0x1200#32 + 0x1C#32 + BitVec.ofNat 32 (2 * t.val) + s.physOffset ∧
          ∀ x : Word, ¬inBytes (argReg s 0) 4 x → m.readByte x = s.mem.readByte x)

/-- R137: `TSETI` writes `INIT` and `HOLD` and no other bit. -/
def Obligations.TsetiWritesInitiatorAndHold : Prop :=
  ∀ (init : BitVec 5) (hold : Bool) (s : State), s.fatal = false →
    (∀ t : TaskId, ∃ v : Half,
      exec (.tseti t.val init hold) s = .next { s with
        tcr := s.tcr.set t v, res := 0xFFFFFFFF#32 } ∧
      ∀ k < 16, v.getLsbD k =
        if k = 5 then hold else if 8 ≤ k ∧ k ≤ 12 then init.getLsbD (k - 8) else s.tcr[t].getLsbD k) ∧
    ∀ t : Nat, 16 ≤ t → exec (.tseti t init hold) s = .next { s with res := 0xFFFFFFFE#32 }

/-- R145: `SZSET` writes the task's nibble of its byte and keeps the other task's. -/
def Obligations.SzsetWritesOneNibble : Prop :=
  ∀ (src dst : BitVec 2) (s : State), s.fatal = false →
    (∀ (t : TaskId) (k : Fin 8), k.val = t.val / 2 → ∃ v : Byte,
      exec (.szset t.val src dst) s = .next { s with sz := s.sz.set k v, res := 0xFFFFFFFF#32 } ∧
      v.toNat =
        if t.val % 2 = 0 then (4 * src.toNat + dst.toNat) * 16 + s.sz[k].toNat % 16
        else s.sz[k].toNat / 16 * 16 + (4 * src.toNat + dst.toNat)) ∧
    ∀ t : Nat, 16 ≤ t → exec (.szset t src dst) s = .next { s with res := 0xFFFFFFFE#32 }

/-- R140: the checks of `DRDPATCH` come before any write; when they pass it completes, counts in `RET1`
and touches no byte outside the listed words. -/
def Obligations.DrdpatchChecksThenPatches : Prop :=
  ∀ (x : BitVec 5) (s : State), s.fatal = false →
    ((argReg s 0).toNat % 4 ≠ 0 ∨ 0xFFFF < (argReg s 1).toNat ∨
        (∃ i < (argReg s 1).toNat, (drdEntry s i).toNat % 4 ≠ 0) →
      exec (.drdpatch x) s = .next { s with res := 0xFFFFFFFE#32 }) ∧
    ((argReg s 0).toNat % 4 = 0 → (argReg s 1).toNat ≤ 0xFFFF →
      (∀ i < (argReg s 1).toNat, (drdEntry s i).toNat % 4 = 0) →
      ∃ (m : Memory) (n : Nat),
        exec (.drdpatch x) s = .next { s with
          mem := m, ret1 := BitVec.ofNat 32 n, res := 0xFFFFFFFF#32 } ∧
        n ≤ (argReg s 1).toNat ∧
        ∀ y : Word, (∀ i < (argReg s 1).toNat, ¬inBytes (drdEntry s i) 4 y) →
          m.readByte y = s.mem.readByte y)

/-- R141, R142: on a list of distinct words, every word that is no continuation and whose initiator is
not "always" carries the requested initiator afterwards, with every other bit kept; continuations and
"always" words are unchanged; `RET1` counts the words patched. `c` marks the continuations (R141 b). -/
def Obligations.DrdpatchPatchesExactlyTheInitiators : Prop :=
  ∀ (x : BitVec 5) (s : State) (c : Nat → Bool), s.fatal = false →
    (argReg s 0).toNat % 4 = 0 → (argReg s 1).toNat ≤ 0xFFFF →
    (∀ i < (argReg s 1).toNat, (drdEntry s i).toNat % 4 = 0) →
    (∀ i < (argReg s 1).toNat, ∀ j < i, drdEntry s i ≠ drdEntry s j) →
    c 0 = false → (∀ i, c (i + 1) = (!c i && (s.memRead (drdEntry s i)).getLsbD 30)) →
    let patched := fun i => !c i && decide ((s.memRead (drdEntry s i)).extractLsb' 21 5 ≠ 0#5)
    ∃ s', exec (.drdpatch x) s = .next s' ∧
      s'.ret1 = BitVec.ofNat 32 (((List.range (argReg s 1).toNat).filter patched).length) ∧
      ∀ i < (argReg s 1).toNat,
        if patched i then
          (s'.memRead (drdEntry s i)).extractLsb' 21 5 = x ∧
          ∀ k < 32, k < 21 ∨ 26 ≤ k →
            (s'.memRead (drdEntry s i)).getLsbD k = (s.memRead (drdEntry s i)).getLsbD k
        else s'.memRead (drdEntry s i) = s.memRead (drdEntry s i)

/-! ## Interrupt queries and glue (`43_interrupt_ops.md`) -/

/-- R160: `TINTCLR` clears one pending bit, with the sub-field for source 28. -/
def Obligations.TintclrClearsOneSource : Prop :=
  ∀ (i : Nat) (s : State), s.fatal = false →
    (SourceNumber i → ∃ v : Word,
      exec (.tintclr i) s = .next { s with ipr := v, res := 0xFFFFFFFF#32 } ∧
      ∀ k < 32, (iprValue { s with ipr := v }).getLsbD k =
        if k = i ∨ (i = 28 ∧ 24 ≤ k ∧ k ≤ 27) then false else (iprValue s).getLsbD k) ∧
    (¬SourceNumber i → exec (.tintclr i) s = .next { s with res := 0xFFFFFFFE#32 })

/-- R162, R163: `TINTSTAT` reports debug, then TEA, then the task; `TINTPEND` the task alone. -/
def Obligations.TintstatAndTintpendAnswer : Prop :=
  ∀ s : State, s.fatal = false →
    let ep := iprValue s &&& ~~~imrValue s
    (∀ t : TaskId, exec (.tintstat t.val) s = .next { s with
      res := if ep.getLsbD 31 then 31#32
        else if ep.getLsbD 28 then 28#32
        else if ep.getLsbD t.val then BitVec.ofNat 32 t.val else 0xFFFFFFFF#32 }) ∧
    (∀ t : TaskId, exec (.tintpend t.val) s = .next { s with
      res := if ep.getLsbD t.val then BitVec.ofNat 32 t.val else 0xFFFFFFFF#32 }) ∧
    (∀ i : Nat, 16 ≤ i → exec (.tintstat i) s = .next { s with res := 0xFFFFFFFE#32 } ∧
      exec (.tintpend i) s = .next { s with res := 0xFFFFFFFE#32 })

/-- R164: `TINTSRC` reports the TEA's task, else the highest pending task, else none. -/
def Obligations.TintsrcReportsTheHighestTask : Prop :=
  ∀ s : State, s.fatal = false →
    let ep := iprValue s &&& ~~~imrValue s
    ∃ v : Word, exec .tintsrc s = .next { s with res := v } ∧
      (ep.getLsbD 28 = true → v = ((iprValue s).extractLsb' 24 4).setWidth 32) ∧
      (ep.getLsbD 28 = false →
        (∀ t < 16, ep.getLsbD t = true → (∀ u, t < u → u < 16 → ep.getLsbD u = false) →
          v = BitVec.ofNat 32 t) ∧
        ((∀ u < 16, ep.getLsbD u = false) → v = 0xFFFFFFFF#32))

/-- R172, R173: the mask toggles change one bit of `IMR` and nothing else. -/
def Obligations.GirqenAndGirqdisToggleOneMaskBit : Prop :=
  ∀ (i : Nat) (s : State), s.fatal = false →
    (SourceNumber i →
      (∃ v : Word, exec (.girqen i) s = .next { s with imr := v, res := 0xFFFFFFFF#32 } ∧
        ∀ k < 32, (imrValue { s with imr := v }).getLsbD k =
          if k = i then false else (imrValue s).getLsbD k) ∧
      (∃ v : Word, exec (.girqdis i) s = .next { s with imr := v, res := 0xFFFFFFFF#32 } ∧
        ∀ k < 32, (imrValue { s with imr := v }).getLsbD k =
          if k = i then true else (imrValue s).getLsbD k)) ∧
    (¬SourceNumber i → exec (.girqen i) s = .next { s with res := 0xFFFFFFFE#32 } ∧
      exec (.girqdis i) s = .next { s with res := 0xFFFFFFFE#32 })

/-- R170: the first `GINIT` clears the handler table, a second changes nothing; before it `IRQ` is 0
whatever `IPR` and `IMR` hold. -/
def Obligations.GinitClearsTheHandlersOnce : Prop :=
  ∀ s : State, s.fatal = false →
    (s.glueInit = false → ∃ h : Vector Handler 32,
      exec .ginit s = .next { s with ht := h, glueInit := true, res := 0xFFFFFFFF#32 } ∧
      ∀ i : Fin 32, h[i].fn = 0#32 ∧ h[i].param = 0#32) ∧
    (s.glueInit = true → exec .ginit s = .next { s with res := 0xFFFFFFFF#32 }) ∧
    (s.glueInit = false → irq s = false ∧ demuxFire s = none)

/-- R174: `GINSTALL` writes one slot of the handler table, any of the 32. -/
def Obligations.GinstallWritesOneHandler : Prop :=
  ∀ s : State, s.fatal = false →
    (∀ i : Fin 32, exec (.ginstall i.val) s = .next { s with
      ht := s.ht.set i { fn := argReg s 0, param := argReg s 1 }, res := 0xFFFFFFFF#32 }) ∧
    ∀ i : Nat, 32 ≤ i → exec (.ginstall i) s = .next { s with res := 0xFFFFFFFE#32 }

/-- R176: `GHDONE` acknowledges the outstanding handler and restores nothing. -/
def Obligations.GhdoneAcknowledgesTheHandler : Prop :=
  ∀ s : State, s.fatal = false →
    (s.dmxWait = true → exec .ghdone s = .next { s with dmxWait := false, res := 0xFFFFFFFF#32 }) ∧
    (s.dmxWait = false → exec .ghdone s = .next { s with res := 0xFFFFFFFE#32 })

/-! ## All commands -/

/-- R182: a write to `CMD` returns `INVALID_ARG` exactly for the causes of the table. Ring bases are
multiples of 4 (R43), so no address `BDGET` or `BDRING` returns is that code. -/
def Obligations.InvalidArgHasTheListedCauses : Prop :=
  ∀ (s s' : State) (w : Word) (rest : List Input), s.inputs = .cmd w :: rest → s.fatal = false →
    (∀ t : TaskId, s.rt[t].base.toNat % 4 = 0) → step s = .next s' → s'.fatal = false →
    (s'.res = 0xFFFFFFFE#32 ↔
      match decode w with
      | .ok i => InvalidArgCause s i
      | .error _ => True)

/-- R188: a command that leaves a code of -2 or below in `RES` changed nothing else; where several
causes hold the first of its rule wins. R187: no command returns `TASK_RUNNING` (`BDGET` and `BDRING`
return addresses, for which only 0 is special, R69). -/
def Obligations.ErrorResultChangesOnlyRes : Prop :=
  (∀ (i : Instr) (s s' : State), exec i s = .next s' → s.fatal = false → s'.fatal = false →
    s'.res.toInt ≤ -2 → s' = { s with res := s'.res }) ∧
  (∀ (s : State) (t : TaskId), s.fatal = false → s.rt[t].inUse = s.rt[t].numBD →
    0x03FFFFFF < (argReg s 2).toNat →
    exec (.bdassign t.val) s = .next { s with res := 0xFFFFFFFD#32 }) ∧
  (∀ (s : State) (t : TaskId), s.fatal = false → s.rt[t].inUse = 0#16 →
    (s.memRead (bdAddr s.rt[t] s.rt[t].rd.toNat)).getLsbD 30 = true →
    exec (.bdrelease t.val) s = .next { s with res := 0xFFFFFFFA#32 }) ∧
  (∀ (i : Instr) (s s' : State), exec i s = .next s' → s.fatal = false → s'.fatal = false →
    instrOp i ≠ .bdget → instrOp i ≠ .bdring → s'.res ≠ 0xFFFFFFF8#32)

/-- R64, R108 (d): a command reads only the argument registers listed for it: writing another value to
any other one changes neither the result nor any other state. -/
def Obligations.CommandsReadOnlyTheListedArguments : Prop :=
  ∀ (i : Instr) (s s' : State) (n : Fin 6) (v : Word), exec i s = .next s' →
    n ∉ listedArgs i ∨ (n = 1 ∧ ∃ t : TaskId, i = .bdassign t.val ∧ s.rt[t].numPtr ≠ 2#2) →
    exec i { s with args := s.args.set n v } = .next { s' with args := s'.args.set n v }

/-- R33, the writes of the access matrix: state in a column changes only under a command with a "w"
there; in particular a command that stores nothing keeps every byte of memory. -/
def Obligations.CommandsWriteOnlyTheirColumns : Prop :=
  ∀ (i : Instr) (s s' : State), exec i s = .next s' →
    (s'.tcr ≠ s.tcr → instrOp i ∈ [.tstart, .tstop, .tcfg, .tseti]) ∧
    (s'.ipr ≠ s.ipr → instrOp i = .tintclr) ∧
    (s'.imr ≠ s.imr → instrOp i ∈ [.tstart, .girqen, .girqdis]) ∧
    (s'.sz ≠ s.sz → instrOp i = .szset) ∧
    (s'.rt ≠ s.rt → instrOp i ∈ [.bdsetup, .bdassign, .bdrelease, .bdreset]) ∧
    (s'.ht ≠ s.ht → instrOp i ∈ [.ginit, .ginstall]) ∧
    (s'.runFlag ≠ s.runFlag → instrOp i ∈ [.tstart, .tstop, .tcfg]) ∧
    (s'.configured ≠ s.configured → instrOp i = .tcfg) ∧
    (s'.mbar ≠ s.mbar ∨ s'.physOffset ≠ s.physOffset ∨ s'.apiInit ≠ s.apiInit →
      instrOp i = .apiinit) ∧
    (s'.allocPtr ≠ s.allocPtr ∨ s'.fatal ≠ s.fatal ∨ s'.fatalReason ≠ s.fatalReason →
      instrOp i = .bdsetup) ∧
    (s'.glueInit ≠ s.glueInit → instrOp i = .ginit) ∧
    (s'.dmxWait ≠ s.dmxWait → instrOp i = .ghdone) ∧
    (s'.mem ≠ s.mem → instrOp i ∈ [.bdsetup, .bdassign, .bdreset, .tcfg, .drdpatch]) ∧
    (s'.engCur ≠ s.engCur → instrOp i ∈ [.bdsetup, .bdreset]) ∧
    (s'.ret1 ≠ s.ret1 → instrOp i ∈ [.tstat, .bdrelease, .drdpatch]) ∧
    s'.args = s.args ∧ s'.argWritten = s.argWritten ∧ s'.cmd = s.cmd ∧ s'.prio = s.prio ∧
    s'.cfg = s.cfg ∧ s'.inputs = s.inputs ∧ s'.dispatchLog = s.dispatchLog ∧
    s'.dmxActive = s.dmxActive ∧ s'.dmxSnap = s.dmxSnap ∧ s'.dmxIdx = s.dmxIdx ∧
    s'.dspId = s.dspId ∧ s'.dspFn = s.dspFn ∧ s'.dspParam = s.dspParam

/-- R161, R190: the pending bit of a source is cleared only by `TINTCLR` of that source, by the
demultiplexer's step for a source with no handler, and by reset; and no command sets one. -/
def Obligations.PendingBitsHaveTwoClearers : Prop :=
  ∀ (s s' : State) (m : Input) (rest : List Input) (k : Nat), s.inputs = m :: rest →
    step s = .next s' → SourceNumber k →
    ((iprValue s).getLsbD k = true → (iprValue s').getLsbD k = false →
      (∃ w, m = .cmd w ∧ decode w = .ok (.tintclr k)) ∨
      (m = .demux ∧ s.dmxActive = true ∧ s.dmxWait = false ∧
        ∃ j : Fin 32, j.val = k ∧ s.ht[j].fn = 0#32) ∨ m = .reset) ∧
    (∀ w, m = .cmd w → (iprValue s').getLsbD k = true → (iprValue s).getLsbD k = true)

/-! ## The engine (`40_task_control.md` section 5) -/

/-- R90, R94, R95: the engine's interrupt events set their pending bits whatever the mask. -/
def Obligations.EngineEventsSetPendingBits : Prop :=
  ∀ (s : State) (rest : List Input),
    (∀ t : TaskId, s.inputs = .engine (.int t) :: rest → ∃ v : Word,
      step s = .next { s with inputs := rest, ipr := v } ∧
      ∀ k < 32, (iprValue { s with ipr := v }).getLsbD k =
        if k = t.val then true else (iprValue s).getLsbD k) ∧
    (∀ t : TaskId, s.inputs = .engine (.tea t) :: rest → ∃ v : Word,
      step s = .next { s with inputs := rest, ipr := v } ∧
      ∀ k < 32, (iprValue { s with ipr := v }).getLsbD k =
        if k = 28 then true else if 24 ≤ k ∧ k ≤ 27 then t.val.testBit (k - 24)
        else (iprValue s).getLsbD k) ∧
    (s.inputs = .engine .dbg :: rest → ∃ v : Word,
      step s = .next { s with inputs := rest, ipr := v } ∧
      ∀ k < 32, (iprValue { s with ipr := v }).getLsbD k =
        if k = 31 then true else (iprValue s).getLsbD k)

/-- R91, R92: completion follows one link of the auto-start chain; self-disable clears `EN` and
nothing else. -/
def Obligations.EngineCompletionAndSelfDisable : Prop :=
  ∀ (s : State) (rest : List Input) (t : TaskId), s.tcr[t].getLsbD 15 = true →
    (∀ u : TaskId, s.inputs = .engine (.done t) :: rest → s.tcr[t].getLsbD 7 = true →
      u.val = s.tcr[t].toNat % 16 → ∃ v : Half,
        step s = .next { s with inputs := rest, tcr := s.tcr.set u v } ∧
        ∀ k < 16, v.getLsbD k = if k = 15 then true else s.tcr[u].getLsbD k) ∧
    (s.inputs = .engine (.done t) :: rest → s.tcr[t].getLsbD 7 = false →
      step s = .next { s with inputs := rest }) ∧
    (s.inputs = .engine (.selfDis t) :: rest → ∃ v : Half,
      step s = .next { s with inputs := rest, tcr := s.tcr.set t v } ∧
      ∀ k < 16, v.getLsbD k = if k = 15 then false else s.tcr[t].getLsbD k)

/-- R93: the engine finishes the BD at its own cursor: one word of memory and the cursor change. -/
def Obligations.EngineFinishesTheBdAtItsCursor : Prop :=
  ∀ (s : State) (rest : List Input) (t : TaskId) (status : Word),
    s.inputs = .engine (.bdDone t status) :: rest → status.getLsbD 30 = false →
    s.rt[t].base ≠ 0#32 → s.rt[t].numBD ≠ 0#16 →
    let a := bdAddr s.rt[t] s.engCur[t].toNat
    (s.memRead a).getLsbD 30 = true →
    ∃ m : Memory,
      step s = .next { s with
        inputs := rest
        mem := m
        engCur := s.engCur.set t
          (BitVec.ofNat 16 ((s.engCur[t].toNat + 1) % s.rt[t].numBD.toNat)) } ∧
      m.readWord a = status ∧
      ∀ x : Word, ¬inBytes a 4 x → m.readByte x = s.mem.readByte x

/-- R98, with R94's exception for the sub-field: what the engine never changes; a move whose
precondition fails does not happen (log 2). -/
def Obligations.EngineMovesAreConfined : Prop :=
  (∀ (e : EngineEvent) (s s' : State), engineMove e s = some s' →
    s' = { s with tcr := s'.tcr, ipr := s'.ipr, mem := s'.mem, engCur := s'.engCur } ∧
    (∀ (t : TaskId) (k : Nat), k < 15 → s'.tcr[t].getLsbD k = s.tcr[t].getLsbD k) ∧
    (∀ k, SourceNumber k → (iprValue s).getLsbD k = true → (iprValue s').getLsbD k = true) ∧
    (∀ x, s'.mem.readByte x ≠ s.mem.readByte x → ∃ (t : TaskId) (status : Word),
      e = .bdDone t status ∧ inBytes (bdAddr s.rt[t] s.engCur[t].toNat) 4 x ∧
        (s.memRead (bdAddr s.rt[t] s.engCur[t].toNat)).getLsbD 30 = true)) ∧
  (∀ (s : State) (rest : List Input) (t : TaskId), s.tcr[t].getLsbD 15 = false →
    s.inputs = .engine (.done t) :: rest ∨ s.inputs = .engine (.selfDis t) :: rest →
    step s = .next { s with inputs := rest }) ∧
  (∀ (s : State) (rest : List Input) (t : TaskId) (status : Word),
    s.inputs = .engine (.bdDone t status) :: rest →
    (status.getLsbD 30 = true ∨ s.rt[t].base = 0#32 ∨ s.rt[t].numBD = 0#16 ∨
      (s.memRead (bdAddr s.rt[t] s.engCur[t].toNat)).getLsbD 30 = false) →
    step s = .next { s with inputs := rest })

/-! ## The demultiplexer (`60_exceptions.md` section 4) -/

/-- R197, R198: `IRQ` is the global enable with an effective pending bit; with it high an idle
demultiplexer takes its snapshot. -/
def Obligations.DemultiplexerFiresOnIrq : Prop :=
  (∀ s : State, irq s = true ↔ s.glueInit = true ∧ (iprValue s &&& ~~~imrValue s) ≠ 0#32) ∧
  (∀ (s : State) (rest : List Input), s.inputs = .demux :: rest → s.dmxActive = false →
    s.glueInit = true → (iprValue s &&& ~~~imrValue s) ≠ 0#32 →
    step s = .next { s with
      inputs := rest, dmxSnap := iprValue s &&& ~~~imrValue s, dmxIdx := 0#6, dmxActive := true })

/-- R199, R201: the scan serves the next bit of the snapshot: handler entry where one is registered,
the defensive clear where none is, the end of the pass where no bit is left. -/
def Obligations.DemultiplexerServesTheNextSource : Prop :=
  ∀ (s : State) (rest : List Input), s.inputs = .demux :: rest → s.dmxActive = true →
    s.dmxWait = false →
    (∀ i : Fin 32, s.dmxIdx.toNat ≤ i.val → s.dmxSnap.getLsbD i.val = true →
      (∀ j, s.dmxIdx.toNat ≤ j → j < i.val → s.dmxSnap.getLsbD j = false) →
      (s.ht[i].fn ≠ 0#32 → step s = .next { s with
        inputs := rest
        dspId := BitVec.ofNat 5 i.val
        dspFn := s.ht[i].fn
        dspParam := s.ht[i].param
        dmxWait := true
        dmxIdx := BitVec.ofNat 6 (i.val + 1)
        dispatchLog := s.dispatchLog ++
          [{ id := BitVec.ofNat 5 i.val, fn := s.ht[i].fn, param := s.ht[i].param }] }) ∧
      (s.ht[i].fn = 0#32 → ∃ v : Word,
        step s = .next { s with inputs := rest, ipr := v, dmxIdx := BitVec.ofNat 6 (i.val + 1) } ∧
        ∀ k < 32, (iprValue { s with ipr := v }).getLsbD k =
          if k = i.val then false else (iprValue s).getLsbD k)) ∧
    ((∀ j, s.dmxIdx.toNat ≤ j → j < 32 → s.dmxSnap.getLsbD j = false) →
      step s = .next { s with inputs := rest, dmxActive := false })

/-- R200 (a), R202: from an idle demultiplexer, two of its steps dispatch the lowest effective pending
source that has a handler, with `IPR` and `IMR` untouched; an outstanding handler and a low `IRQ`
leave it no step (log 2). -/
def Obligations.LowestPendingSourceIsDispatched : Prop :=
  (∀ (s : State) (rest : List Input) (i : Fin 32), s.inputs = .demux :: .demux :: rest →
    s.dmxActive = false → s.dmxWait = false → s.glueInit = true →
    (effectivePending s).getLsbD i.val = true →
    (∀ j < i.val, (effectivePending s).getLsbD j = false) → s.ht[i].fn ≠ 0#32 →
    ∃ s1 s2, step s = .next s1 ∧ step s1 = .next s2 ∧ s2.inputs = rest ∧ s2.dmxWait = true ∧
      s2.dispatchLog = s.dispatchLog ++
        [{ id := BitVec.ofNat 5 i.val, fn := s.ht[i].fn, param := s.ht[i].param }] ∧
      s2.ipr = s.ipr ∧ s2.imr = s.imr) ∧
  (∀ (s : State) (rest : List Input), s.inputs = .demux :: rest →
    (s.dmxActive = true ∧ s.dmxWait = true) ∨ (s.dmxActive = false ∧ irq s = false) →
    step s = .next { s with inputs := rest })

/-! ## The register block and the host side -/

/-- R16, R47, as bytes in big-endian order (log 18): what the host and the engine read at the register
map's addresses once `APIINIT` has placed it, and that everything else is memory. -/
def Obligations.RegisterBlockReadsTheRegisters : Prop :=
  ∀ s : State, s.apiInit = true →
    let base := s.mbar + 0x1200#32
    (∀ k < 4, busByte s (base + BitVec.ofNat 32 (0x14 + k)) = (iprValue s).extractLsb' (24 - 8 * k) 8) ∧
    (∀ k < 4, busByte s (base + BitVec.ofNat 32 (0x18 + k)) = (imrValue s).extractLsb' (24 - 8 * k) 8) ∧
    (∀ t : TaskId, addrTcr s t = base + BitVec.ofNat 32 (0x1C + 2 * t.val) ∧
      busByte s (addrTcr s t) = s.tcr[t].extractLsb' 8 8 ∧
      busByte s (addrTcr s t + 1#32) = s.tcr[t].extractLsb' 0 8) ∧
    (∀ i : Fin 32, busByte s (base + BitVec.ofNat 32 (0x3C + i.val)) = s.prio[i]) ∧
    (∀ k : Fin 8, busByte s (base + BitVec.ofNat 32 (0x60 + k.val)) = s.sz[k]) ∧
    (∀ a : Word, (a - base).toNat < 0x14 ∨ (0x5C ≤ (a - base).toNat ∧ (a - base).toNat < 0x60) ∨
      0x68 ≤ (a - base).toNat → busByte s a = s.mem.readByte a)

/-- R41, R47: a byte or a word stored by the environment lands in memory (a word at any address,
log 27), or, where it touches a register of the register block, stops the machine at the first such
byte (log 15, which also has every address as memory before `APIINIT`); the host's direct `PRIO` write
of R211 is a move of its own (log 8). -/
def Obligations.EnvironmentStoresReachMemoryAndPrio : Prop :=
  ∀ (s : State) (rest : List Input) (a : Word),
    let register (x : Word) : Prop :=
      s.apiInit = true ∧
        let o := (x - (s.mbar + 0x1200#32)).toNat
        (0x14 ≤ o ∧ o < 0x5C) ∨ (0x60 ≤ o ∧ o < 0x68)
    (∀ b, s.inputs = .storeByte a b :: rest → ¬register a →
      ∃ m, step s = .next { s with inputs := rest, mem := m } ∧ m.readByte a = b ∧
        ∀ x, x ≠ a → m.readByte x = s.mem.readByte x) ∧
    (∀ b, s.inputs = .storeByte a b :: rest → register a →
      step s = .fault (.registerBlockWrite a)) ∧
    (∀ v, s.inputs = .storeWord a v :: rest → (∀ x, inBytes a 4 x → ¬register x) →
      ∃ m, step s = .next { s with inputs := rest, mem := m } ∧ m.readWord a = v ∧
        (m.readByte a = v.extractLsb' 24 8 ∧ m.readByte (a + 1#32) = v.extractLsb' 16 8 ∧
          m.readByte (a + 2#32) = v.extractLsb' 8 8 ∧ m.readByte (a + 3#32) = v.extractLsb' 0 8) ∧
        ∀ x, ¬inBytes a 4 x → m.readByte x = s.mem.readByte x) ∧
    (∀ v x, s.inputs = .storeWord a v :: rest → inBytes a 4 x → register x →
      (∀ y, inBytes a (x - a).toNat y → ¬register y) →
      step s = .fault (.registerBlockWrite x)) ∧
    (∀ (i : Fin 32) (b : Byte), s.inputs = .prio i b :: rest →
      step s = .next { s with inputs := rest, prio := s.prio.set i b })

/-- R146, R150, R152, R153, R154: the host-side resolution of sizes, strides, pointer counts and the
bytes-per-element increment; and `TASKSETUP` with nobody else moving (R156): the handle is the group
task number (R132), the task ends configured, a BD-based one hands back its ring's base (R152; in the
`start` fields: log 25), and one with two FIFO sides ends in `Fatal(BadNumPtr)` (R150,
`90_conflicts.md` C9). That the pragma byte meets no register is a premise of the last (log 15). -/
def Obligations.HostSideResolvesTheParameters : Prop :=
  (sizeCode 1 = 1#2 ∧ sizeCode 2 = 2#2 ∧ sizeCode 4 = 0#2) ∧
  (∀ st : Int, misalignSign st = if st < 0 then -1 else if st = 0 then 0 else 1) ∧
  (∀ a b d : Int, (a ≠ 0 → bytesPerElement a b d = -|a|) ∧
    (a = 0 → b ≠ 0 → bytesPerElement a b d = -|b|) ∧ (a = 0 → b = 0 → bytesPerElement a b d = d)) ∧
  (∀ (p : SideProfile) (q : SideParams),
    let size := if p.flexible then q.size else p.fixedSize
    (p.incrType = .fifo → resolvedStride p q = 0) ∧
    (p.incrType = .auto → resolvedStride p q = if q.incr < 0 then -(size : Int) else (size : Int)) ∧
    (p.incrType = .runtime → resolvedStride p q = q.incr) ∧
    (p.incrType = .constant → resolvedStride p q = p.constStride)) ∧
  (∀ a b : IncrType, (numPointers a b).toNat =
    (if a = .fifo then 0 else 1) + (if b = .fifo then 0 else 1)) ∧
  (∀ (d : TaskDescriptor) (p : TaskProfile) (q out : SetupParams) (s s' : State) (t : TaskId),
    d.globalNumber < 256 → taskSetup d p q [] s = .next (.done t out, s') →
    t.val = d.globalNumber % 16 ∧ s'.configured[t] = true ∧ s'.fatal = false ∧
      (0 < p.maxBD →
        (p.src.incrType ≠ .fifo → out.src.start = s'.rt[t].base) ∧
        (p.dst.incrType ≠ .fifo → out.dst.start = s'.rt[t].base))) ∧
  (∀ (d : TaskDescriptor) (p : TaskProfile) (q : SetupParams) (s : State), s.fatal = false →
    d.globalNumber < 256 → 0 < p.maxBD → p.maxBD ≤ 0xFFFF → q.numBD.toNat ≤ p.maxBD →
    p.src.incrType = .fifo → p.dst.incrType = .fifo →
    d.enableSlot.toNat % 4 = 0 → d.baseSlot.toNat % 4 = 0 → d.lastSlot.toNat % 4 = 0 →
    d.startSlot.toNat % 4 = 0 → regCell s d.pragmaAddr = none →
    ∃ s', taskSetup d p q [] s = .next (.panicked, s') ∧ s'.fatal = true ∧ s'.fatalReason = 1#2 ∧
      s'.rt = s.rt ∧ s'.allocPtr = s.allocPtr)
end

