-- ==== Sys2Proof/Laws/State.lean ====
section
/-! SUPPORT. One lemma per field per update of State, so that no proof unfolds a record update. -/

namespace Sys2Proof.Machine

variable (s : State)

/-! ### `ret` -/

@[simp] theorem State.ret_cfg (v : Word) : (s.ret v).cfg = s.cfg := rfl
@[simp] theorem State.ret_args (v : Word) : (s.ret v).args = s.args := rfl
@[simp] theorem State.ret_argWritten (v : Word) : (s.ret v).argWritten = s.argWritten := rfl
@[simp] theorem State.ret_res (v : Word) : (s.ret v).res = v := rfl
@[simp] theorem State.ret_ret1 (v : Word) : (s.ret v).ret1 = s.ret1 := rfl
@[simp] theorem State.ret_cmd (v : Word) : (s.ret v).cmd = s.cmd := rfl
@[simp] theorem State.ret_apiInit (v : Word) : (s.ret v).apiInit = s.apiInit := rfl
@[simp] theorem State.ret_glueInit (v : Word) : (s.ret v).glueInit = s.glueInit := rfl
@[simp] theorem State.ret_fatal (v : Word) : (s.ret v).fatal = s.fatal := rfl
@[simp] theorem State.ret_fatalReason (v : Word) : (s.ret v).fatalReason = s.fatalReason := rfl
@[simp] theorem State.ret_tcr (v : Word) : (s.ret v).tcr = s.tcr := rfl
@[simp] theorem State.ret_ipr (v : Word) : (s.ret v).ipr = s.ipr := rfl
@[simp] theorem State.ret_imr (v : Word) : (s.ret v).imr = s.imr := rfl
@[simp] theorem State.ret_sz (v : Word) : (s.ret v).sz = s.sz := rfl
@[simp] theorem State.ret_prio (v : Word) : (s.ret v).prio = s.prio := rfl
@[simp] theorem State.ret_mbar (v : Word) : (s.ret v).mbar = s.mbar := rfl
@[simp] theorem State.ret_physOffset (v : Word) : (s.ret v).physOffset = s.physOffset := rfl
@[simp] theorem State.ret_allocPtr (v : Word) : (s.ret v).allocPtr = s.allocPtr := rfl
@[simp] theorem State.ret_rt (v : Word) : (s.ret v).rt = s.rt := rfl
@[simp] theorem State.ret_ht (v : Word) : (s.ret v).ht = s.ht := rfl
@[simp] theorem State.ret_runFlag (v : Word) : (s.ret v).runFlag = s.runFlag := rfl
@[simp] theorem State.ret_configured (v : Word) : (s.ret v).configured = s.configured := rfl
@[simp] theorem State.ret_dmxActive (v : Word) : (s.ret v).dmxActive = s.dmxActive := rfl
@[simp] theorem State.ret_dmxWait (v : Word) : (s.ret v).dmxWait = s.dmxWait := rfl
@[simp] theorem State.ret_dmxSnap (v : Word) : (s.ret v).dmxSnap = s.dmxSnap := rfl
@[simp] theorem State.ret_dmxIdx (v : Word) : (s.ret v).dmxIdx = s.dmxIdx := rfl
@[simp] theorem State.ret_dspId (v : Word) : (s.ret v).dspId = s.dspId := rfl
@[simp] theorem State.ret_dspFn (v : Word) : (s.ret v).dspFn = s.dspFn := rfl
@[simp] theorem State.ret_dspParam (v : Word) : (s.ret v).dspParam = s.dspParam := rfl
@[simp] theorem State.ret_engCur (v : Word) : (s.ret v).engCur = s.engCur := rfl
@[simp] theorem State.ret_mem (v : Word) : (s.ret v).mem = s.mem := rfl
@[simp] theorem State.ret_inputs (v : Word) : (s.ret v).inputs = s.inputs := rfl
@[simp] theorem State.ret_dispatchLog (v : Word) : (s.ret v).dispatchLog = s.dispatchLog := rfl

/-! ### `withRet1` -/

@[simp] theorem State.withRet1_cfg (v : Word) : (s.withRet1 v).cfg = s.cfg := rfl
@[simp] theorem State.withRet1_args (v : Word) : (s.withRet1 v).args = s.args := rfl
@[simp] theorem State.withRet1_argWritten (v : Word) : (s.withRet1 v).argWritten = s.argWritten := rfl
@[simp] theorem State.withRet1_res (v : Word) : (s.withRet1 v).res = s.res := rfl
@[simp] theorem State.withRet1_ret1 (v : Word) : (s.withRet1 v).ret1 = v := rfl
@[simp] theorem State.withRet1_cmd (v : Word) : (s.withRet1 v).cmd = s.cmd := rfl
@[simp] theorem State.withRet1_apiInit (v : Word) : (s.withRet1 v).apiInit = s.apiInit := rfl
@[simp] theorem State.withRet1_glueInit (v : Word) : (s.withRet1 v).glueInit = s.glueInit := rfl
@[simp] theorem State.withRet1_fatal (v : Word) : (s.withRet1 v).fatal = s.fatal := rfl
@[simp] theorem State.withRet1_fatalReason (v : Word) : (s.withRet1 v).fatalReason = s.fatalReason := rfl
@[simp] theorem State.withRet1_tcr (v : Word) : (s.withRet1 v).tcr = s.tcr := rfl
@[simp] theorem State.withRet1_ipr (v : Word) : (s.withRet1 v).ipr = s.ipr := rfl
@[simp] theorem State.withRet1_imr (v : Word) : (s.withRet1 v).imr = s.imr := rfl
@[simp] theorem State.withRet1_sz (v : Word) : (s.withRet1 v).sz = s.sz := rfl
@[simp] theorem State.withRet1_prio (v : Word) : (s.withRet1 v).prio = s.prio := rfl
@[simp] theorem State.withRet1_mbar (v : Word) : (s.withRet1 v).mbar = s.mbar := rfl
@[simp] theorem State.withRet1_physOffset (v : Word) : (s.withRet1 v).physOffset = s.physOffset := rfl
@[simp] theorem State.withRet1_allocPtr (v : Word) : (s.withRet1 v).allocPtr = s.allocPtr := rfl
@[simp] theorem State.withRet1_rt (v : Word) : (s.withRet1 v).rt = s.rt := rfl
@[simp] theorem State.withRet1_ht (v : Word) : (s.withRet1 v).ht = s.ht := rfl
@[simp] theorem State.withRet1_runFlag (v : Word) : (s.withRet1 v).runFlag = s.runFlag := rfl
@[simp] theorem State.withRet1_configured (v : Word) : (s.withRet1 v).configured = s.configured := rfl
@[simp] theorem State.withRet1_dmxActive (v : Word) : (s.withRet1 v).dmxActive = s.dmxActive := rfl
@[simp] theorem State.withRet1_dmxWait (v : Word) : (s.withRet1 v).dmxWait = s.dmxWait := rfl
@[simp] theorem State.withRet1_dmxSnap (v : Word) : (s.withRet1 v).dmxSnap = s.dmxSnap := rfl
@[simp] theorem State.withRet1_dmxIdx (v : Word) : (s.withRet1 v).dmxIdx = s.dmxIdx := rfl
@[simp] theorem State.withRet1_dspId (v : Word) : (s.withRet1 v).dspId = s.dspId := rfl
@[simp] theorem State.withRet1_dspFn (v : Word) : (s.withRet1 v).dspFn = s.dspFn := rfl
@[simp] theorem State.withRet1_dspParam (v : Word) : (s.withRet1 v).dspParam = s.dspParam := rfl
@[simp] theorem State.withRet1_engCur (v : Word) : (s.withRet1 v).engCur = s.engCur := rfl
@[simp] theorem State.withRet1_mem (v : Word) : (s.withRet1 v).mem = s.mem := rfl
@[simp] theorem State.withRet1_inputs (v : Word) : (s.withRet1 v).inputs = s.inputs := rfl
@[simp] theorem State.withRet1_dispatchLog (v : Word) : (s.withRet1 v).dispatchLog = s.dispatchLog := rfl

/-! ### `setTcr` -/

@[simp] theorem State.setTcr_cfg (t : TaskId) (v : Half) : (s.setTcr t v).cfg = s.cfg := rfl
@[simp] theorem State.setTcr_args (t : TaskId) (v : Half) : (s.setTcr t v).args = s.args := rfl
@[simp] theorem State.setTcr_argWritten (t : TaskId) (v : Half) : (s.setTcr t v).argWritten = s.argWritten := rfl
@[simp] theorem State.setTcr_res (t : TaskId) (v : Half) : (s.setTcr t v).res = s.res := rfl
@[simp] theorem State.setTcr_ret1 (t : TaskId) (v : Half) : (s.setTcr t v).ret1 = s.ret1 := rfl
@[simp] theorem State.setTcr_cmd (t : TaskId) (v : Half) : (s.setTcr t v).cmd = s.cmd := rfl
@[simp] theorem State.setTcr_apiInit (t : TaskId) (v : Half) : (s.setTcr t v).apiInit = s.apiInit := rfl
@[simp] theorem State.setTcr_glueInit (t : TaskId) (v : Half) : (s.setTcr t v).glueInit = s.glueInit := rfl
@[simp] theorem State.setTcr_fatal (t : TaskId) (v : Half) : (s.setTcr t v).fatal = s.fatal := rfl
@[simp] theorem State.setTcr_fatalReason (t : TaskId) (v : Half) : (s.setTcr t v).fatalReason = s.fatalReason := rfl
@[simp] theorem State.setTcr_tcr (t : TaskId) (v : Half) : (s.setTcr t v).tcr = s.tcr.set t v := rfl
@[simp] theorem State.setTcr_ipr (t : TaskId) (v : Half) : (s.setTcr t v).ipr = s.ipr := rfl
@[simp] theorem State.setTcr_imr (t : TaskId) (v : Half) : (s.setTcr t v).imr = s.imr := rfl
@[simp] theorem State.setTcr_sz (t : TaskId) (v : Half) : (s.setTcr t v).sz = s.sz := rfl
@[simp] theorem State.setTcr_prio (t : TaskId) (v : Half) : (s.setTcr t v).prio = s.prio := rfl
@[simp] theorem State.setTcr_mbar (t : TaskId) (v : Half) : (s.setTcr t v).mbar = s.mbar := rfl
@[simp] theorem State.setTcr_physOffset (t : TaskId) (v : Half) : (s.setTcr t v).physOffset = s.physOffset := rfl
@[simp] theorem State.setTcr_allocPtr (t : TaskId) (v : Half) : (s.setTcr t v).allocPtr = s.allocPtr := rfl
@[simp] theorem State.setTcr_rt (t : TaskId) (v : Half) : (s.setTcr t v).rt = s.rt := rfl
@[simp] theorem State.setTcr_ht (t : TaskId) (v : Half) : (s.setTcr t v).ht = s.ht := rfl
@[simp] theorem State.setTcr_runFlag (t : TaskId) (v : Half) : (s.setTcr t v).runFlag = s.runFlag := rfl
@[simp] theorem State.setTcr_configured (t : TaskId) (v : Half) : (s.setTcr t v).configured = s.configured := rfl
@[simp] theorem State.setTcr_dmxActive (t : TaskId) (v : Half) : (s.setTcr t v).dmxActive = s.dmxActive := rfl
@[simp] theorem State.setTcr_dmxWait (t : TaskId) (v : Half) : (s.setTcr t v).dmxWait = s.dmxWait := rfl
@[simp] theorem State.setTcr_dmxSnap (t : TaskId) (v : Half) : (s.setTcr t v).dmxSnap = s.dmxSnap := rfl
@[simp] theorem State.setTcr_dmxIdx (t : TaskId) (v : Half) : (s.setTcr t v).dmxIdx = s.dmxIdx := rfl
@[simp] theorem State.setTcr_dspId (t : TaskId) (v : Half) : (s.setTcr t v).dspId = s.dspId := rfl
@[simp] theorem State.setTcr_dspFn (t : TaskId) (v : Half) : (s.setTcr t v).dspFn = s.dspFn := rfl
@[simp] theorem State.setTcr_dspParam (t : TaskId) (v : Half) : (s.setTcr t v).dspParam = s.dspParam := rfl
@[simp] theorem State.setTcr_engCur (t : TaskId) (v : Half) : (s.setTcr t v).engCur = s.engCur := rfl
@[simp] theorem State.setTcr_mem (t : TaskId) (v : Half) : (s.setTcr t v).mem = s.mem := rfl
@[simp] theorem State.setTcr_inputs (t : TaskId) (v : Half) : (s.setTcr t v).inputs = s.inputs := rfl
@[simp] theorem State.setTcr_dispatchLog (t : TaskId) (v : Half) : (s.setTcr t v).dispatchLog = s.dispatchLog := rfl

/-! ### `setIpr` -/

@[simp] theorem State.setIpr_cfg (v : Word) : (s.setIpr v).cfg = s.cfg := rfl
@[simp] theorem State.setIpr_args (v : Word) : (s.setIpr v).args = s.args := rfl
@[simp] theorem State.setIpr_argWritten (v : Word) : (s.setIpr v).argWritten = s.argWritten := rfl
@[simp] theorem State.setIpr_res (v : Word) : (s.setIpr v).res = s.res := rfl
@[simp] theorem State.setIpr_ret1 (v : Word) : (s.setIpr v).ret1 = s.ret1 := rfl
@[simp] theorem State.setIpr_cmd (v : Word) : (s.setIpr v).cmd = s.cmd := rfl
@[simp] theorem State.setIpr_apiInit (v : Word) : (s.setIpr v).apiInit = s.apiInit := rfl
@[simp] theorem State.setIpr_glueInit (v : Word) : (s.setIpr v).glueInit = s.glueInit := rfl
@[simp] theorem State.setIpr_fatal (v : Word) : (s.setIpr v).fatal = s.fatal := rfl
@[simp] theorem State.setIpr_fatalReason (v : Word) : (s.setIpr v).fatalReason = s.fatalReason := rfl
@[simp] theorem State.setIpr_tcr (v : Word) : (s.setIpr v).tcr = s.tcr := rfl
@[simp] theorem State.setIpr_ipr (v : Word) : (s.setIpr v).ipr = v &&& iprMask := rfl
@[simp] theorem State.setIpr_imr (v : Word) : (s.setIpr v).imr = s.imr := rfl
@[simp] theorem State.setIpr_sz (v : Word) : (s.setIpr v).sz = s.sz := rfl
@[simp] theorem State.setIpr_prio (v : Word) : (s.setIpr v).prio = s.prio := rfl
@[simp] theorem State.setIpr_mbar (v : Word) : (s.setIpr v).mbar = s.mbar := rfl
@[simp] theorem State.setIpr_physOffset (v : Word) : (s.setIpr v).physOffset = s.physOffset := rfl
@[simp] theorem State.setIpr_allocPtr (v : Word) : (s.setIpr v).allocPtr = s.allocPtr := rfl
@[simp] theorem State.setIpr_rt (v : Word) : (s.setIpr v).rt = s.rt := rfl
@[simp] theorem State.setIpr_ht (v : Word) : (s.setIpr v).ht = s.ht := rfl
@[simp] theorem State.setIpr_runFlag (v : Word) : (s.setIpr v).runFlag = s.runFlag := rfl
@[simp] theorem State.setIpr_configured (v : Word) : (s.setIpr v).configured = s.configured := rfl
@[simp] theorem State.setIpr_dmxActive (v : Word) : (s.setIpr v).dmxActive = s.dmxActive := rfl
@[simp] theorem State.setIpr_dmxWait (v : Word) : (s.setIpr v).dmxWait = s.dmxWait := rfl
@[simp] theorem State.setIpr_dmxSnap (v : Word) : (s.setIpr v).dmxSnap = s.dmxSnap := rfl
@[simp] theorem State.setIpr_dmxIdx (v : Word) : (s.setIpr v).dmxIdx = s.dmxIdx := rfl
@[simp] theorem State.setIpr_dspId (v : Word) : (s.setIpr v).dspId = s.dspId := rfl
@[simp] theorem State.setIpr_dspFn (v : Word) : (s.setIpr v).dspFn = s.dspFn := rfl
@[simp] theorem State.setIpr_dspParam (v : Word) : (s.setIpr v).dspParam = s.dspParam := rfl
@[simp] theorem State.setIpr_engCur (v : Word) : (s.setIpr v).engCur = s.engCur := rfl
@[simp] theorem State.setIpr_mem (v : Word) : (s.setIpr v).mem = s.mem := rfl
@[simp] theorem State.setIpr_inputs (v : Word) : (s.setIpr v).inputs = s.inputs := rfl
@[simp] theorem State.setIpr_dispatchLog (v : Word) : (s.setIpr v).dispatchLog = s.dispatchLog := rfl

/-! ### `setImr` -/

@[simp] theorem State.setImr_cfg (v : Word) : (s.setImr v).cfg = s.cfg := rfl
@[simp] theorem State.setImr_args (v : Word) : (s.setImr v).args = s.args := rfl
@[simp] theorem State.setImr_argWritten (v : Word) : (s.setImr v).argWritten = s.argWritten := rfl
@[simp] theorem State.setImr_res (v : Word) : (s.setImr v).res = s.res := rfl
@[simp] theorem State.setImr_ret1 (v : Word) : (s.setImr v).ret1 = s.ret1 := rfl
@[simp] theorem State.setImr_cmd (v : Word) : (s.setImr v).cmd = s.cmd := rfl
@[simp] theorem State.setImr_apiInit (v : Word) : (s.setImr v).apiInit = s.apiInit := rfl
@[simp] theorem State.setImr_glueInit (v : Word) : (s.setImr v).glueInit = s.glueInit := rfl
@[simp] theorem State.setImr_fatal (v : Word) : (s.setImr v).fatal = s.fatal := rfl
@[simp] theorem State.setImr_fatalReason (v : Word) : (s.setImr v).fatalReason = s.fatalReason := rfl
@[simp] theorem State.setImr_tcr (v : Word) : (s.setImr v).tcr = s.tcr := rfl
@[simp] theorem State.setImr_ipr (v : Word) : (s.setImr v).ipr = s.ipr := rfl
@[simp] theorem State.setImr_imr (v : Word) : (s.setImr v).imr = v ||| ~~~srcMask := rfl
@[simp] theorem State.setImr_sz (v : Word) : (s.setImr v).sz = s.sz := rfl
@[simp] theorem State.setImr_prio (v : Word) : (s.setImr v).prio = s.prio := rfl
@[simp] theorem State.setImr_mbar (v : Word) : (s.setImr v).mbar = s.mbar := rfl
@[simp] theorem State.setImr_physOffset (v : Word) : (s.setImr v).physOffset = s.physOffset := rfl
@[simp] theorem State.setImr_allocPtr (v : Word) : (s.setImr v).allocPtr = s.allocPtr := rfl
@[simp] theorem State.setImr_rt (v : Word) : (s.setImr v).rt = s.rt := rfl
@[simp] theorem State.setImr_ht (v : Word) : (s.setImr v).ht = s.ht := rfl
@[simp] theorem State.setImr_runFlag (v : Word) : (s.setImr v).runFlag = s.runFlag := rfl
@[simp] theorem State.setImr_configured (v : Word) : (s.setImr v).configured = s.configured := rfl
@[simp] theorem State.setImr_dmxActive (v : Word) : (s.setImr v).dmxActive = s.dmxActive := rfl
@[simp] theorem State.setImr_dmxWait (v : Word) : (s.setImr v).dmxWait = s.dmxWait := rfl
@[simp] theorem State.setImr_dmxSnap (v : Word) : (s.setImr v).dmxSnap = s.dmxSnap := rfl
@[simp] theorem State.setImr_dmxIdx (v : Word) : (s.setImr v).dmxIdx = s.dmxIdx := rfl
@[simp] theorem State.setImr_dspId (v : Word) : (s.setImr v).dspId = s.dspId := rfl
@[simp] theorem State.setImr_dspFn (v : Word) : (s.setImr v).dspFn = s.dspFn := rfl
@[simp] theorem State.setImr_dspParam (v : Word) : (s.setImr v).dspParam = s.dspParam := rfl
@[simp] theorem State.setImr_engCur (v : Word) : (s.setImr v).engCur = s.engCur := rfl
@[simp] theorem State.setImr_mem (v : Word) : (s.setImr v).mem = s.mem := rfl
@[simp] theorem State.setImr_inputs (v : Word) : (s.setImr v).inputs = s.inputs := rfl
@[simp] theorem State.setImr_dispatchLog (v : Word) : (s.setImr v).dispatchLog = s.dispatchLog := rfl

/-! ### `setRunFlag` -/

@[simp] theorem State.setRunFlag_cfg (t : TaskId) (b : Bool) : (s.setRunFlag t b).cfg = s.cfg := rfl
@[simp] theorem State.setRunFlag_args (t : TaskId) (b : Bool) : (s.setRunFlag t b).args = s.args := rfl
@[simp] theorem State.setRunFlag_argWritten (t : TaskId) (b : Bool) : (s.setRunFlag t b).argWritten = s.argWritten := rfl
@[simp] theorem State.setRunFlag_res (t : TaskId) (b : Bool) : (s.setRunFlag t b).res = s.res := rfl
@[simp] theorem State.setRunFlag_ret1 (t : TaskId) (b : Bool) : (s.setRunFlag t b).ret1 = s.ret1 := rfl
@[simp] theorem State.setRunFlag_cmd (t : TaskId) (b : Bool) : (s.setRunFlag t b).cmd = s.cmd := rfl
@[simp] theorem State.setRunFlag_apiInit (t : TaskId) (b : Bool) : (s.setRunFlag t b).apiInit = s.apiInit := rfl
@[simp] theorem State.setRunFlag_glueInit (t : TaskId) (b : Bool) : (s.setRunFlag t b).glueInit = s.glueInit := rfl
@[simp] theorem State.setRunFlag_fatal (t : TaskId) (b : Bool) : (s.setRunFlag t b).fatal = s.fatal := rfl
@[simp] theorem State.setRunFlag_fatalReason (t : TaskId) (b : Bool) : (s.setRunFlag t b).fatalReason = s.fatalReason := rfl
@[simp] theorem State.setRunFlag_tcr (t : TaskId) (b : Bool) : (s.setRunFlag t b).tcr = s.tcr := rfl
@[simp] theorem State.setRunFlag_ipr (t : TaskId) (b : Bool) : (s.setRunFlag t b).ipr = s.ipr := rfl
@[simp] theorem State.setRunFlag_imr (t : TaskId) (b : Bool) : (s.setRunFlag t b).imr = s.imr := rfl
@[simp] theorem State.setRunFlag_sz (t : TaskId) (b : Bool) : (s.setRunFlag t b).sz = s.sz := rfl
@[simp] theorem State.setRunFlag_prio (t : TaskId) (b : Bool) : (s.setRunFlag t b).prio = s.prio := rfl
@[simp] theorem State.setRunFlag_mbar (t : TaskId) (b : Bool) : (s.setRunFlag t b).mbar = s.mbar := rfl
@[simp] theorem State.setRunFlag_physOffset (t : TaskId) (b : Bool) : (s.setRunFlag t b).physOffset = s.physOffset := rfl
@[simp] theorem State.setRunFlag_allocPtr (t : TaskId) (b : Bool) : (s.setRunFlag t b).allocPtr = s.allocPtr := rfl
@[simp] theorem State.setRunFlag_rt (t : TaskId) (b : Bool) : (s.setRunFlag t b).rt = s.rt := rfl
@[simp] theorem State.setRunFlag_ht (t : TaskId) (b : Bool) : (s.setRunFlag t b).ht = s.ht := rfl
@[simp] theorem State.setRunFlag_runFlag (t : TaskId) (b : Bool) : (s.setRunFlag t b).runFlag = s.runFlag.set t b := rfl
@[simp] theorem State.setRunFlag_configured (t : TaskId) (b : Bool) : (s.setRunFlag t b).configured = s.configured := rfl
@[simp] theorem State.setRunFlag_dmxActive (t : TaskId) (b : Bool) : (s.setRunFlag t b).dmxActive = s.dmxActive := rfl
@[simp] theorem State.setRunFlag_dmxWait (t : TaskId) (b : Bool) : (s.setRunFlag t b).dmxWait = s.dmxWait := rfl
@[simp] theorem State.setRunFlag_dmxSnap (t : TaskId) (b : Bool) : (s.setRunFlag t b).dmxSnap = s.dmxSnap := rfl
@[simp] theorem State.setRunFlag_dmxIdx (t : TaskId) (b : Bool) : (s.setRunFlag t b).dmxIdx = s.dmxIdx := rfl
@[simp] theorem State.setRunFlag_dspId (t : TaskId) (b : Bool) : (s.setRunFlag t b).dspId = s.dspId := rfl
@[simp] theorem State.setRunFlag_dspFn (t : TaskId) (b : Bool) : (s.setRunFlag t b).dspFn = s.dspFn := rfl
@[simp] theorem State.setRunFlag_dspParam (t : TaskId) (b : Bool) : (s.setRunFlag t b).dspParam = s.dspParam := rfl
@[simp] theorem State.setRunFlag_engCur (t : TaskId) (b : Bool) : (s.setRunFlag t b).engCur = s.engCur := rfl
@[simp] theorem State.setRunFlag_mem (t : TaskId) (b : Bool) : (s.setRunFlag t b).mem = s.mem := rfl
@[simp] theorem State.setRunFlag_inputs (t : TaskId) (b : Bool) : (s.setRunFlag t b).inputs = s.inputs := rfl
@[simp] theorem State.setRunFlag_dispatchLog (t : TaskId) (b : Bool) : (s.setRunFlag t b).dispatchLog = s.dispatchLog := rfl

/-! ### `setConfigured` -/

@[simp] theorem State.setConfigured_cfg (t : TaskId) : (s.setConfigured t).cfg = s.cfg := rfl
@[simp] theorem State.setConfigured_args (t : TaskId) : (s.setConfigured t).args = s.args := rfl
@[simp] theorem State.setConfigured_argWritten (t : TaskId) : (s.setConfigured t).argWritten = s.argWritten := rfl
@[simp] theorem State.setConfigured_res (t : TaskId) : (s.setConfigured t).res = s.res := rfl
@[simp] theorem State.setConfigured_ret1 (t : TaskId) : (s.setConfigured t).ret1 = s.ret1 := rfl
@[simp] theorem State.setConfigured_cmd (t : TaskId) : (s.setConfigured t).cmd = s.cmd := rfl
@[simp] theorem State.setConfigured_apiInit (t : TaskId) : (s.setConfigured t).apiInit = s.apiInit := rfl
@[simp] theorem State.setConfigured_glueInit (t : TaskId) : (s.setConfigured t).glueInit = s.glueInit := rfl
@[simp] theorem State.setConfigured_fatal (t : TaskId) : (s.setConfigured t).fatal = s.fatal := rfl
@[simp] theorem State.setConfigured_fatalReason (t : TaskId) : (s.setConfigured t).fatalReason = s.fatalReason := rfl
@[simp] theorem State.setConfigured_tcr (t : TaskId) : (s.setConfigured t).tcr = s.tcr := rfl
@[simp] theorem State.setConfigured_ipr (t : TaskId) : (s.setConfigured t).ipr = s.ipr := rfl
@[simp] theorem State.setConfigured_imr (t : TaskId) : (s.setConfigured t).imr = s.imr := rfl
@[simp] theorem State.setConfigured_sz (t : TaskId) : (s.setConfigured t).sz = s.sz := rfl
@[simp] theorem State.setConfigured_prio (t : TaskId) : (s.setConfigured t).prio = s.prio := rfl
@[simp] theorem State.setConfigured_mbar (t : TaskId) : (s.setConfigured t).mbar = s.mbar := rfl
@[simp] theorem State.setConfigured_physOffset (t : TaskId) : (s.setConfigured t).physOffset = s.physOffset := rfl
@[simp] theorem State.setConfigured_allocPtr (t : TaskId) : (s.setConfigured t).allocPtr = s.allocPtr := rfl
@[simp] theorem State.setConfigured_rt (t : TaskId) : (s.setConfigured t).rt = s.rt := rfl
@[simp] theorem State.setConfigured_ht (t : TaskId) : (s.setConfigured t).ht = s.ht := rfl
@[simp] theorem State.setConfigured_runFlag (t : TaskId) : (s.setConfigured t).runFlag = s.runFlag := rfl
@[simp] theorem State.setConfigured_configured (t : TaskId) : (s.setConfigured t).configured = s.configured.set t true := rfl
@[simp] theorem State.setConfigured_dmxActive (t : TaskId) : (s.setConfigured t).dmxActive = s.dmxActive := rfl
@[simp] theorem State.setConfigured_dmxWait (t : TaskId) : (s.setConfigured t).dmxWait = s.dmxWait := rfl
@[simp] theorem State.setConfigured_dmxSnap (t : TaskId) : (s.setConfigured t).dmxSnap = s.dmxSnap := rfl
@[simp] theorem State.setConfigured_dmxIdx (t : TaskId) : (s.setConfigured t).dmxIdx = s.dmxIdx := rfl
@[simp] theorem State.setConfigured_dspId (t : TaskId) : (s.setConfigured t).dspId = s.dspId := rfl
@[simp] theorem State.setConfigured_dspFn (t : TaskId) : (s.setConfigured t).dspFn = s.dspFn := rfl
@[simp] theorem State.setConfigured_dspParam (t : TaskId) : (s.setConfigured t).dspParam = s.dspParam := rfl
@[simp] theorem State.setConfigured_engCur (t : TaskId) : (s.setConfigured t).engCur = s.engCur := rfl
@[simp] theorem State.setConfigured_mem (t : TaskId) : (s.setConfigured t).mem = s.mem := rfl
@[simp] theorem State.setConfigured_inputs (t : TaskId) : (s.setConfigured t).inputs = s.inputs := rfl
@[simp] theorem State.setConfigured_dispatchLog (t : TaskId) : (s.setConfigured t).dispatchLog = s.dispatchLog := rfl

/-! ### `setRing` -/

@[simp] theorem State.setRing_cfg (t : TaskId) (e : RingEntry) : (s.setRing t e).cfg = s.cfg := rfl
@[simp] theorem State.setRing_args (t : TaskId) (e : RingEntry) : (s.setRing t e).args = s.args := rfl
@[simp] theorem State.setRing_argWritten (t : TaskId) (e : RingEntry) : (s.setRing t e).argWritten = s.argWritten := rfl
@[simp] theorem State.setRing_res (t : TaskId) (e : RingEntry) : (s.setRing t e).res = s.res := rfl
@[simp] theorem State.setRing_ret1 (t : TaskId) (e : RingEntry) : (s.setRing t e).ret1 = s.ret1 := rfl
@[simp] theorem State.setRing_cmd (t : TaskId) (e : RingEntry) : (s.setRing t e).cmd = s.cmd := rfl
@[simp] theorem State.setRing_apiInit (t : TaskId) (e : RingEntry) : (s.setRing t e).apiInit = s.apiInit := rfl
@[simp] theorem State.setRing_glueInit (t : TaskId) (e : RingEntry) : (s.setRing t e).glueInit = s.glueInit := rfl
@[simp] theorem State.setRing_fatal (t : TaskId) (e : RingEntry) : (s.setRing t e).fatal = s.fatal := rfl
@[simp] theorem State.setRing_fatalReason (t : TaskId) (e : RingEntry) : (s.setRing t e).fatalReason = s.fatalReason := rfl
@[simp] theorem State.setRing_tcr (t : TaskId) (e : RingEntry) : (s.setRing t e).tcr = s.tcr := rfl
@[simp] theorem State.setRing_ipr (t : TaskId) (e : RingEntry) : (s.setRing t e).ipr = s.ipr := rfl
@[simp] theorem State.setRing_imr (t : TaskId) (e : RingEntry) : (s.setRing t e).imr = s.imr := rfl
@[simp] theorem State.setRing_sz (t : TaskId) (e : RingEntry) : (s.setRing t e).sz = s.sz := rfl
@[simp] theorem State.setRing_prio (t : TaskId) (e : RingEntry) : (s.setRing t e).prio = s.prio := rfl
@[simp] theorem State.setRing_mbar (t : TaskId) (e : RingEntry) : (s.setRing t e).mbar = s.mbar := rfl
@[simp] theorem State.setRing_physOffset (t : TaskId) (e : RingEntry) : (s.setRing t e).physOffset = s.physOffset := rfl
@[simp] theorem State.setRing_allocPtr (t : TaskId) (e : RingEntry) : (s.setRing t e).allocPtr = s.allocPtr := rfl
@[simp] theorem State.setRing_rt (t : TaskId) (e : RingEntry) : (s.setRing t e).rt = s.rt.set t e := rfl
@[simp] theorem State.setRing_ht (t : TaskId) (e : RingEntry) : (s.setRing t e).ht = s.ht := rfl
@[simp] theorem State.setRing_runFlag (t : TaskId) (e : RingEntry) : (s.setRing t e).runFlag = s.runFlag := rfl
@[simp] theorem State.setRing_configured (t : TaskId) (e : RingEntry) : (s.setRing t e).configured = s.configured := rfl
@[simp] theorem State.setRing_dmxActive (t : TaskId) (e : RingEntry) : (s.setRing t e).dmxActive = s.dmxActive := rfl
@[simp] theorem State.setRing_dmxWait (t : TaskId) (e : RingEntry) : (s.setRing t e).dmxWait = s.dmxWait := rfl
@[simp] theorem State.setRing_dmxSnap (t : TaskId) (e : RingEntry) : (s.setRing t e).dmxSnap = s.dmxSnap := rfl
@[simp] theorem State.setRing_dmxIdx (t : TaskId) (e : RingEntry) : (s.setRing t e).dmxIdx = s.dmxIdx := rfl
@[simp] theorem State.setRing_dspId (t : TaskId) (e : RingEntry) : (s.setRing t e).dspId = s.dspId := rfl
@[simp] theorem State.setRing_dspFn (t : TaskId) (e : RingEntry) : (s.setRing t e).dspFn = s.dspFn := rfl
@[simp] theorem State.setRing_dspParam (t : TaskId) (e : RingEntry) : (s.setRing t e).dspParam = s.dspParam := rfl
@[simp] theorem State.setRing_engCur (t : TaskId) (e : RingEntry) : (s.setRing t e).engCur = s.engCur := rfl
@[simp] theorem State.setRing_mem (t : TaskId) (e : RingEntry) : (s.setRing t e).mem = s.mem := rfl
@[simp] theorem State.setRing_inputs (t : TaskId) (e : RingEntry) : (s.setRing t e).inputs = s.inputs := rfl
@[simp] theorem State.setRing_dispatchLog (t : TaskId) (e : RingEntry) : (s.setRing t e).dispatchLog = s.dispatchLog := rfl

/-! ### `setHandler` -/

@[simp] theorem State.setHandler_cfg (i : Fin 32) (h : Handler) : (s.setHandler i h).cfg = s.cfg := rfl
@[simp] theorem State.setHandler_args (i : Fin 32) (h : Handler) : (s.setHandler i h).args = s.args := rfl
@[simp] theorem State.setHandler_argWritten (i : Fin 32) (h : Handler) : (s.setHandler i h).argWritten = s.argWritten := rfl
@[simp] theorem State.setHandler_res (i : Fin 32) (h : Handler) : (s.setHandler i h).res = s.res := rfl
@[simp] theorem State.setHandler_ret1 (i : Fin 32) (h : Handler) : (s.setHandler i h).ret1 = s.ret1 := rfl
@[simp] theorem State.setHandler_cmd (i : Fin 32) (h : Handler) : (s.setHandler i h).cmd = s.cmd := rfl
@[simp] theorem State.setHandler_apiInit (i : Fin 32) (h : Handler) : (s.setHandler i h).apiInit = s.apiInit := rfl
@[simp] theorem State.setHandler_glueInit (i : Fin 32) (h : Handler) : (s.setHandler i h).glueInit = s.glueInit := rfl
@[simp] theorem State.setHandler_fatal (i : Fin 32) (h : Handler) : (s.setHandler i h).fatal = s.fatal := rfl
@[simp] theorem State.setHandler_fatalReason (i : Fin 32) (h : Handler) : (s.setHandler i h).fatalReason = s.fatalReason := rfl
@[simp] theorem State.setHandler_tcr (i : Fin 32) (h : Handler) : (s.setHandler i h).tcr = s.tcr := rfl
@[simp] theorem State.setHandler_ipr (i : Fin 32) (h : Handler) : (s.setHandler i h).ipr = s.ipr := rfl
@[simp] theorem State.setHandler_imr (i : Fin 32) (h : Handler) : (s.setHandler i h).imr = s.imr := rfl
@[simp] theorem State.setHandler_sz (i : Fin 32) (h : Handler) : (s.setHandler i h).sz = s.sz := rfl
@[simp] theorem State.setHandler_prio (i : Fin 32) (h : Handler) : (s.setHandler i h).prio = s.prio := rfl
@[simp] theorem State.setHandler_mbar (i : Fin 32) (h : Handler) : (s.setHandler i h).mbar = s.mbar := rfl
@[simp] theorem State.setHandler_physOffset (i : Fin 32) (h : Handler) : (s.setHandler i h).physOffset = s.physOffset := rfl
@[simp] theorem State.setHandler_allocPtr (i : Fin 32) (h : Handler) : (s.setHandler i h).allocPtr = s.allocPtr := rfl
@[simp] theorem State.setHandler_rt (i : Fin 32) (h : Handler) : (s.setHandler i h).rt = s.rt := rfl
@[simp] theorem State.setHandler_ht (i : Fin 32) (h : Handler) : (s.setHandler i h).ht = s.ht.set i h := rfl
@[simp] theorem State.setHandler_runFlag (i : Fin 32) (h : Handler) : (s.setHandler i h).runFlag = s.runFlag := rfl
@[simp] theorem State.setHandler_configured (i : Fin 32) (h : Handler) : (s.setHandler i h).configured = s.configured := rfl
@[simp] theorem State.setHandler_dmxActive (i : Fin 32) (h : Handler) : (s.setHandler i h).dmxActive = s.dmxActive := rfl
@[simp] theorem State.setHandler_dmxWait (i : Fin 32) (h : Handler) : (s.setHandler i h).dmxWait = s.dmxWait := rfl
@[simp] theorem State.setHandler_dmxSnap (i : Fin 32) (h : Handler) : (s.setHandler i h).dmxSnap = s.dmxSnap := rfl
@[simp] theorem State.setHandler_dmxIdx (i : Fin 32) (h : Handler) : (s.setHandler i h).dmxIdx = s.dmxIdx := rfl
@[simp] theorem State.setHandler_dspId (i : Fin 32) (h : Handler) : (s.setHandler i h).dspId = s.dspId := rfl
@[simp] theorem State.setHandler_dspFn (i : Fin 32) (h : Handler) : (s.setHandler i h).dspFn = s.dspFn := rfl
@[simp] theorem State.setHandler_dspParam (i : Fin 32) (h : Handler) : (s.setHandler i h).dspParam = s.dspParam := rfl
@[simp] theorem State.setHandler_engCur (i : Fin 32) (h : Handler) : (s.setHandler i h).engCur = s.engCur := rfl
@[simp] theorem State.setHandler_mem (i : Fin 32) (h : Handler) : (s.setHandler i h).mem = s.mem := rfl
@[simp] theorem State.setHandler_inputs (i : Fin 32) (h : Handler) : (s.setHandler i h).inputs = s.inputs := rfl
@[simp] theorem State.setHandler_dispatchLog (i : Fin 32) (h : Handler) : (s.setHandler i h).dispatchLog = s.dispatchLog := rfl

/-! ### `setEngCur` -/

@[simp] theorem State.setEngCur_cfg (t : TaskId) (c : Half) : (s.setEngCur t c).cfg = s.cfg := rfl
@[simp] theorem State.setEngCur_args (t : TaskId) (c : Half) : (s.setEngCur t c).args = s.args := rfl
@[simp] theorem State.setEngCur_argWritten (t : TaskId) (c : Half) : (s.setEngCur t c).argWritten = s.argWritten := rfl
@[simp] theorem State.setEngCur_res (t : TaskId) (c : Half) : (s.setEngCur t c).res = s.res := rfl
@[simp] theorem State.setEngCur_ret1 (t : TaskId) (c : Half) : (s.setEngCur t c).ret1 = s.ret1 := rfl
@[simp] theorem State.setEngCur_cmd (t : TaskId) (c : Half) : (s.setEngCur t c).cmd = s.cmd := rfl
@[simp] theorem State.setEngCur_apiInit (t : TaskId) (c : Half) : (s.setEngCur t c).apiInit = s.apiInit := rfl
@[simp] theorem State.setEngCur_glueInit (t : TaskId) (c : Half) : (s.setEngCur t c).glueInit = s.glueInit := rfl
@[simp] theorem State.setEngCur_fatal (t : TaskId) (c : Half) : (s.setEngCur t c).fatal = s.fatal := rfl
@[simp] theorem State.setEngCur_fatalReason (t : TaskId) (c : Half) : (s.setEngCur t c).fatalReason = s.fatalReason := rfl
@[simp] theorem State.setEngCur_tcr (t : TaskId) (c : Half) : (s.setEngCur t c).tcr = s.tcr := rfl
@[simp] theorem State.setEngCur_ipr (t : TaskId) (c : Half) : (s.setEngCur t c).ipr = s.ipr := rfl
@[simp] theorem State.setEngCur_imr (t : TaskId) (c : Half) : (s.setEngCur t c).imr = s.imr := rfl
@[simp] theorem State.setEngCur_sz (t : TaskId) (c : Half) : (s.setEngCur t c).sz = s.sz := rfl
@[simp] theorem State.setEngCur_prio (t : TaskId) (c : Half) : (s.setEngCur t c).prio = s.prio := rfl
@[simp] theorem State.setEngCur_mbar (t : TaskId) (c : Half) : (s.setEngCur t c).mbar = s.mbar := rfl
@[simp] theorem State.setEngCur_physOffset (t : TaskId) (c : Half) : (s.setEngCur t c).physOffset = s.physOffset := rfl
@[simp] theorem State.setEngCur_allocPtr (t : TaskId) (c : Half) : (s.setEngCur t c).allocPtr = s.allocPtr := rfl
@[simp] theorem State.setEngCur_rt (t : TaskId) (c : Half) : (s.setEngCur t c).rt = s.rt := rfl
@[simp] theorem State.setEngCur_ht (t : TaskId) (c : Half) : (s.setEngCur t c).ht = s.ht := rfl
@[simp] theorem State.setEngCur_runFlag (t : TaskId) (c : Half) : (s.setEngCur t c).runFlag = s.runFlag := rfl
@[simp] theorem State.setEngCur_configured (t : TaskId) (c : Half) : (s.setEngCur t c).configured = s.configured := rfl
@[simp] theorem State.setEngCur_dmxActive (t : TaskId) (c : Half) : (s.setEngCur t c).dmxActive = s.dmxActive := rfl
@[simp] theorem State.setEngCur_dmxWait (t : TaskId) (c : Half) : (s.setEngCur t c).dmxWait = s.dmxWait := rfl
@[simp] theorem State.setEngCur_dmxSnap (t : TaskId) (c : Half) : (s.setEngCur t c).dmxSnap = s.dmxSnap := rfl
@[simp] theorem State.setEngCur_dmxIdx (t : TaskId) (c : Half) : (s.setEngCur t c).dmxIdx = s.dmxIdx := rfl
@[simp] theorem State.setEngCur_dspId (t : TaskId) (c : Half) : (s.setEngCur t c).dspId = s.dspId := rfl
@[simp] theorem State.setEngCur_dspFn (t : TaskId) (c : Half) : (s.setEngCur t c).dspFn = s.dspFn := rfl
@[simp] theorem State.setEngCur_dspParam (t : TaskId) (c : Half) : (s.setEngCur t c).dspParam = s.dspParam := rfl
@[simp] theorem State.setEngCur_engCur (t : TaskId) (c : Half) : (s.setEngCur t c).engCur = s.engCur.set t c := rfl
@[simp] theorem State.setEngCur_mem (t : TaskId) (c : Half) : (s.setEngCur t c).mem = s.mem := rfl
@[simp] theorem State.setEngCur_inputs (t : TaskId) (c : Half) : (s.setEngCur t c).inputs = s.inputs := rfl
@[simp] theorem State.setEngCur_dispatchLog (t : TaskId) (c : Half) : (s.setEngCur t c).dispatchLog = s.dispatchLog := rfl

/-! ### `setSz` -/

@[simp] theorem State.setSz_cfg (k : Fin 8) (v : Byte) : (s.setSz k v).cfg = s.cfg := rfl
@[simp] theorem State.setSz_args (k : Fin 8) (v : Byte) : (s.setSz k v).args = s.args := rfl
@[simp] theorem State.setSz_argWritten (k : Fin 8) (v : Byte) : (s.setSz k v).argWritten = s.argWritten := rfl
@[simp] theorem State.setSz_res (k : Fin 8) (v : Byte) : (s.setSz k v).res = s.res := rfl
@[simp] theorem State.setSz_ret1 (k : Fin 8) (v : Byte) : (s.setSz k v).ret1 = s.ret1 := rfl
@[simp] theorem State.setSz_cmd (k : Fin 8) (v : Byte) : (s.setSz k v).cmd = s.cmd := rfl
@[simp] theorem State.setSz_apiInit (k : Fin 8) (v : Byte) : (s.setSz k v).apiInit = s.apiInit := rfl
@[simp] theorem State.setSz_glueInit (k : Fin 8) (v : Byte) : (s.setSz k v).glueInit = s.glueInit := rfl
@[simp] theorem State.setSz_fatal (k : Fin 8) (v : Byte) : (s.setSz k v).fatal = s.fatal := rfl
@[simp] theorem State.setSz_fatalReason (k : Fin 8) (v : Byte) : (s.setSz k v).fatalReason = s.fatalReason := rfl
@[simp] theorem State.setSz_tcr (k : Fin 8) (v : Byte) : (s.setSz k v).tcr = s.tcr := rfl
@[simp] theorem State.setSz_ipr (k : Fin 8) (v : Byte) : (s.setSz k v).ipr = s.ipr := rfl
@[simp] theorem State.setSz_imr (k : Fin 8) (v : Byte) : (s.setSz k v).imr = s.imr := rfl
@[simp] theorem State.setSz_sz (k : Fin 8) (v : Byte) : (s.setSz k v).sz = s.sz.set k v := rfl
@[simp] theorem State.setSz_prio (k : Fin 8) (v : Byte) : (s.setSz k v).prio = s.prio := rfl
@[simp] theorem State.setSz_mbar (k : Fin 8) (v : Byte) : (s.setSz k v).mbar = s.mbar := rfl
@[simp] theorem State.setSz_physOffset (k : Fin 8) (v : Byte) : (s.setSz k v).physOffset = s.physOffset := rfl
@[simp] theorem State.setSz_allocPtr (k : Fin 8) (v : Byte) : (s.setSz k v).allocPtr = s.allocPtr := rfl
@[simp] theorem State.setSz_rt (k : Fin 8) (v : Byte) : (s.setSz k v).rt = s.rt := rfl
@[simp] theorem State.setSz_ht (k : Fin 8) (v : Byte) : (s.setSz k v).ht = s.ht := rfl
@[simp] theorem State.setSz_runFlag (k : Fin 8) (v : Byte) : (s.setSz k v).runFlag = s.runFlag := rfl
@[simp] theorem State.setSz_configured (k : Fin 8) (v : Byte) : (s.setSz k v).configured = s.configured := rfl
@[simp] theorem State.setSz_dmxActive (k : Fin 8) (v : Byte) : (s.setSz k v).dmxActive = s.dmxActive := rfl
@[simp] theorem State.setSz_dmxWait (k : Fin 8) (v : Byte) : (s.setSz k v).dmxWait = s.dmxWait := rfl
@[simp] theorem State.setSz_dmxSnap (k : Fin 8) (v : Byte) : (s.setSz k v).dmxSnap = s.dmxSnap := rfl
@[simp] theorem State.setSz_dmxIdx (k : Fin 8) (v : Byte) : (s.setSz k v).dmxIdx = s.dmxIdx := rfl
@[simp] theorem State.setSz_dspId (k : Fin 8) (v : Byte) : (s.setSz k v).dspId = s.dspId := rfl
@[simp] theorem State.setSz_dspFn (k : Fin 8) (v : Byte) : (s.setSz k v).dspFn = s.dspFn := rfl
@[simp] theorem State.setSz_dspParam (k : Fin 8) (v : Byte) : (s.setSz k v).dspParam = s.dspParam := rfl
@[simp] theorem State.setSz_engCur (k : Fin 8) (v : Byte) : (s.setSz k v).engCur = s.engCur := rfl
@[simp] theorem State.setSz_mem (k : Fin 8) (v : Byte) : (s.setSz k v).mem = s.mem := rfl
@[simp] theorem State.setSz_inputs (k : Fin 8) (v : Byte) : (s.setSz k v).inputs = s.inputs := rfl
@[simp] theorem State.setSz_dispatchLog (k : Fin 8) (v : Byte) : (s.setSz k v).dispatchLog = s.dispatchLog := rfl

/-! ### `setPrio` -/

@[simp] theorem State.setPrio_cfg (i : Fin 32) (b : Byte) : (s.setPrio i b).cfg = s.cfg := rfl
@[simp] theorem State.setPrio_args (i : Fin 32) (b : Byte) : (s.setPrio i b).args = s.args := rfl
@[simp] theorem State.setPrio_argWritten (i : Fin 32) (b : Byte) : (s.setPrio i b).argWritten = s.argWritten := rfl
@[simp] theorem State.setPrio_res (i : Fin 32) (b : Byte) : (s.setPrio i b).res = s.res := rfl
@[simp] theorem State.setPrio_ret1 (i : Fin 32) (b : Byte) : (s.setPrio i b).ret1 = s.ret1 := rfl
@[simp] theorem State.setPrio_cmd (i : Fin 32) (b : Byte) : (s.setPrio i b).cmd = s.cmd := rfl
@[simp] theorem State.setPrio_apiInit (i : Fin 32) (b : Byte) : (s.setPrio i b).apiInit = s.apiInit := rfl
@[simp] theorem State.setPrio_glueInit (i : Fin 32) (b : Byte) : (s.setPrio i b).glueInit = s.glueInit := rfl
@[simp] theorem State.setPrio_fatal (i : Fin 32) (b : Byte) : (s.setPrio i b).fatal = s.fatal := rfl
@[simp] theorem State.setPrio_fatalReason (i : Fin 32) (b : Byte) : (s.setPrio i b).fatalReason = s.fatalReason := rfl
@[simp] theorem State.setPrio_tcr (i : Fin 32) (b : Byte) : (s.setPrio i b).tcr = s.tcr := rfl
@[simp] theorem State.setPrio_ipr (i : Fin 32) (b : Byte) : (s.setPrio i b).ipr = s.ipr := rfl
@[simp] theorem State.setPrio_imr (i : Fin 32) (b : Byte) : (s.setPrio i b).imr = s.imr := rfl
@[simp] theorem State.setPrio_sz (i : Fin 32) (b : Byte) : (s.setPrio i b).sz = s.sz := rfl
@[simp] theorem State.setPrio_prio (i : Fin 32) (b : Byte) : (s.setPrio i b).prio = s.prio.set i b := rfl
@[simp] theorem State.setPrio_mbar (i : Fin 32) (b : Byte) : (s.setPrio i b).mbar = s.mbar := rfl
@[simp] theorem State.setPrio_physOffset (i : Fin 32) (b : Byte) : (s.setPrio i b).physOffset = s.physOffset := rfl
@[simp] theorem State.setPrio_allocPtr (i : Fin 32) (b : Byte) : (s.setPrio i b).allocPtr = s.allocPtr := rfl
@[simp] theorem State.setPrio_rt (i : Fin 32) (b : Byte) : (s.setPrio i b).rt = s.rt := rfl
@[simp] theorem State.setPrio_ht (i : Fin 32) (b : Byte) : (s.setPrio i b).ht = s.ht := rfl
@[simp] theorem State.setPrio_runFlag (i : Fin 32) (b : Byte) : (s.setPrio i b).runFlag = s.runFlag := rfl
@[simp] theorem State.setPrio_configured (i : Fin 32) (b : Byte) : (s.setPrio i b).configured = s.configured := rfl
@[simp] theorem State.setPrio_dmxActive (i : Fin 32) (b : Byte) : (s.setPrio i b).dmxActive = s.dmxActive := rfl
@[simp] theorem State.setPrio_dmxWait (i : Fin 32) (b : Byte) : (s.setPrio i b).dmxWait = s.dmxWait := rfl
@[simp] theorem State.setPrio_dmxSnap (i : Fin 32) (b : Byte) : (s.setPrio i b).dmxSnap = s.dmxSnap := rfl
@[simp] theorem State.setPrio_dmxIdx (i : Fin 32) (b : Byte) : (s.setPrio i b).dmxIdx = s.dmxIdx := rfl
@[simp] theorem State.setPrio_dspId (i : Fin 32) (b : Byte) : (s.setPrio i b).dspId = s.dspId := rfl
@[simp] theorem State.setPrio_dspFn (i : Fin 32) (b : Byte) : (s.setPrio i b).dspFn = s.dspFn := rfl
@[simp] theorem State.setPrio_dspParam (i : Fin 32) (b : Byte) : (s.setPrio i b).dspParam = s.dspParam := rfl
@[simp] theorem State.setPrio_engCur (i : Fin 32) (b : Byte) : (s.setPrio i b).engCur = s.engCur := rfl
@[simp] theorem State.setPrio_mem (i : Fin 32) (b : Byte) : (s.setPrio i b).mem = s.mem := rfl
@[simp] theorem State.setPrio_inputs (i : Fin 32) (b : Byte) : (s.setPrio i b).inputs = s.inputs := rfl
@[simp] theorem State.setPrio_dispatchLog (i : Fin 32) (b : Byte) : (s.setPrio i b).dispatchLog = s.dispatchLog := rfl

/-! ### `memWrite` -/

@[simp] theorem State.memWrite_cfg (a v : Word) : (s.memWrite a v).cfg = s.cfg := rfl
@[simp] theorem State.memWrite_args (a v : Word) : (s.memWrite a v).args = s.args := rfl
@[simp] theorem State.memWrite_argWritten (a v : Word) : (s.memWrite a v).argWritten = s.argWritten := rfl
@[simp] theorem State.memWrite_res (a v : Word) : (s.memWrite a v).res = s.res := rfl
@[simp] theorem State.memWrite_ret1 (a v : Word) : (s.memWrite a v).ret1 = s.ret1 := rfl
@[simp] theorem State.memWrite_cmd (a v : Word) : (s.memWrite a v).cmd = s.cmd := rfl
@[simp] theorem State.memWrite_apiInit (a v : Word) : (s.memWrite a v).apiInit = s.apiInit := rfl
@[simp] theorem State.memWrite_glueInit (a v : Word) : (s.memWrite a v).glueInit = s.glueInit := rfl
@[simp] theorem State.memWrite_fatal (a v : Word) : (s.memWrite a v).fatal = s.fatal := rfl
@[simp] theorem State.memWrite_fatalReason (a v : Word) : (s.memWrite a v).fatalReason = s.fatalReason := rfl
@[simp] theorem State.memWrite_tcr (a v : Word) : (s.memWrite a v).tcr = s.tcr := rfl
@[simp] theorem State.memWrite_ipr (a v : Word) : (s.memWrite a v).ipr = s.ipr := rfl
@[simp] theorem State.memWrite_imr (a v : Word) : (s.memWrite a v).imr = s.imr := rfl
@[simp] theorem State.memWrite_sz (a v : Word) : (s.memWrite a v).sz = s.sz := rfl
@[simp] theorem State.memWrite_prio (a v : Word) : (s.memWrite a v).prio = s.prio := rfl
@[simp] theorem State.memWrite_mbar (a v : Word) : (s.memWrite a v).mbar = s.mbar := rfl
@[simp] theorem State.memWrite_physOffset (a v : Word) : (s.memWrite a v).physOffset = s.physOffset := rfl
@[simp] theorem State.memWrite_allocPtr (a v : Word) : (s.memWrite a v).allocPtr = s.allocPtr := rfl
@[simp] theorem State.memWrite_rt (a v : Word) : (s.memWrite a v).rt = s.rt := rfl
@[simp] theorem State.memWrite_ht (a v : Word) : (s.memWrite a v).ht = s.ht := rfl
@[simp] theorem State.memWrite_runFlag (a v : Word) : (s.memWrite a v).runFlag = s.runFlag := rfl
@[simp] theorem State.memWrite_configured (a v : Word) : (s.memWrite a v).configured = s.configured := rfl
@[simp] theorem State.memWrite_dmxActive (a v : Word) : (s.memWrite a v).dmxActive = s.dmxActive := rfl
@[simp] theorem State.memWrite_dmxWait (a v : Word) : (s.memWrite a v).dmxWait = s.dmxWait := rfl
@[simp] theorem State.memWrite_dmxSnap (a v : Word) : (s.memWrite a v).dmxSnap = s.dmxSnap := rfl
@[simp] theorem State.memWrite_dmxIdx (a v : Word) : (s.memWrite a v).dmxIdx = s.dmxIdx := rfl
@[simp] theorem State.memWrite_dspId (a v : Word) : (s.memWrite a v).dspId = s.dspId := rfl
@[simp] theorem State.memWrite_dspFn (a v : Word) : (s.memWrite a v).dspFn = s.dspFn := rfl
@[simp] theorem State.memWrite_dspParam (a v : Word) : (s.memWrite a v).dspParam = s.dspParam := rfl
@[simp] theorem State.memWrite_engCur (a v : Word) : (s.memWrite a v).engCur = s.engCur := rfl
@[simp] theorem State.memWrite_mem (a v : Word) : (s.memWrite a v).mem = s.mem.writeWord a v := rfl
@[simp] theorem State.memWrite_inputs (a v : Word) : (s.memWrite a v).inputs = s.inputs := rfl
@[simp] theorem State.memWrite_dispatchLog (a v : Word) : (s.memWrite a v).dispatchLog = s.dispatchLog := rfl

/-! ### `raiseFatal` -/

@[simp] theorem raiseFatal_cfg (r : BitVec 2) : (raiseFatal s r).cfg = s.cfg := rfl
@[simp] theorem raiseFatal_args (r : BitVec 2) : (raiseFatal s r).args = s.args := rfl
@[simp] theorem raiseFatal_argWritten (r : BitVec 2) : (raiseFatal s r).argWritten = s.argWritten := rfl
@[simp] theorem raiseFatal_res (r : BitVec 2) : (raiseFatal s r).res = s.res := rfl
@[simp] theorem raiseFatal_ret1 (r : BitVec 2) : (raiseFatal s r).ret1 = s.ret1 := rfl
@[simp] theorem raiseFatal_cmd (r : BitVec 2) : (raiseFatal s r).cmd = s.cmd := rfl
@[simp] theorem raiseFatal_apiInit (r : BitVec 2) : (raiseFatal s r).apiInit = s.apiInit := rfl
@[simp] theorem raiseFatal_glueInit (r : BitVec 2) : (raiseFatal s r).glueInit = s.glueInit := rfl
@[simp] theorem raiseFatal_fatal (r : BitVec 2) : (raiseFatal s r).fatal = true := rfl
@[simp] theorem raiseFatal_fatalReason (r : BitVec 2) : (raiseFatal s r).fatalReason = r := rfl
@[simp] theorem raiseFatal_tcr (r : BitVec 2) : (raiseFatal s r).tcr = s.tcr := rfl
@[simp] theorem raiseFatal_ipr (r : BitVec 2) : (raiseFatal s r).ipr = s.ipr := rfl
@[simp] theorem raiseFatal_imr (r : BitVec 2) : (raiseFatal s r).imr = s.imr := rfl
@[simp] theorem raiseFatal_sz (r : BitVec 2) : (raiseFatal s r).sz = s.sz := rfl
@[simp] theorem raiseFatal_prio (r : BitVec 2) : (raiseFatal s r).prio = s.prio := rfl
@[simp] theorem raiseFatal_mbar (r : BitVec 2) : (raiseFatal s r).mbar = s.mbar := rfl
@[simp] theorem raiseFatal_physOffset (r : BitVec 2) : (raiseFatal s r).physOffset = s.physOffset := rfl
@[simp] theorem raiseFatal_allocPtr (r : BitVec 2) : (raiseFatal s r).allocPtr = s.allocPtr := rfl
@[simp] theorem raiseFatal_rt (r : BitVec 2) : (raiseFatal s r).rt = s.rt := rfl
@[simp] theorem raiseFatal_ht (r : BitVec 2) : (raiseFatal s r).ht = s.ht := rfl
@[simp] theorem raiseFatal_runFlag (r : BitVec 2) : (raiseFatal s r).runFlag = s.runFlag := rfl
@[simp] theorem raiseFatal_configured (r : BitVec 2) : (raiseFatal s r).configured = s.configured := rfl
@[simp] theorem raiseFatal_dmxActive (r : BitVec 2) : (raiseFatal s r).dmxActive = s.dmxActive := rfl
@[simp] theorem raiseFatal_dmxWait (r : BitVec 2) : (raiseFatal s r).dmxWait = s.dmxWait := rfl
@[simp] theorem raiseFatal_dmxSnap (r : BitVec 2) : (raiseFatal s r).dmxSnap = s.dmxSnap := rfl
@[simp] theorem raiseFatal_dmxIdx (r : BitVec 2) : (raiseFatal s r).dmxIdx = s.dmxIdx := rfl
@[simp] theorem raiseFatal_dspId (r : BitVec 2) : (raiseFatal s r).dspId = s.dspId := rfl
@[simp] theorem raiseFatal_dspFn (r : BitVec 2) : (raiseFatal s r).dspFn = s.dspFn := rfl
@[simp] theorem raiseFatal_dspParam (r : BitVec 2) : (raiseFatal s r).dspParam = s.dspParam := rfl
@[simp] theorem raiseFatal_engCur (r : BitVec 2) : (raiseFatal s r).engCur = s.engCur := rfl
@[simp] theorem raiseFatal_mem (r : BitVec 2) : (raiseFatal s r).mem = s.mem := rfl
@[simp] theorem raiseFatal_inputs (r : BitVec 2) : (raiseFatal s r).inputs = s.inputs := rfl
@[simp] theorem raiseFatal_dispatchLog (r : BitVec 2) : (raiseFatal s r).dispatchLog = s.dispatchLog := rfl

/-! ### `leaveHandler` -/

@[simp] theorem leaveHandler_cfg : (leaveHandler s).cfg = s.cfg := rfl
@[simp] theorem leaveHandler_args : (leaveHandler s).args = s.args := rfl
@[simp] theorem leaveHandler_argWritten : (leaveHandler s).argWritten = s.argWritten := rfl
@[simp] theorem leaveHandler_res : (leaveHandler s).res = s.res := rfl
@[simp] theorem leaveHandler_ret1 : (leaveHandler s).ret1 = s.ret1 := rfl
@[simp] theorem leaveHandler_cmd : (leaveHandler s).cmd = s.cmd := rfl
@[simp] theorem leaveHandler_apiInit : (leaveHandler s).apiInit = s.apiInit := rfl
@[simp] theorem leaveHandler_glueInit : (leaveHandler s).glueInit = s.glueInit := rfl
@[simp] theorem leaveHandler_fatal : (leaveHandler s).fatal = s.fatal := rfl
@[simp] theorem leaveHandler_fatalReason : (leaveHandler s).fatalReason = s.fatalReason := rfl
@[simp] theorem leaveHandler_tcr : (leaveHandler s).tcr = s.tcr := rfl
@[simp] theorem leaveHandler_ipr : (leaveHandler s).ipr = s.ipr := rfl
@[simp] theorem leaveHandler_imr : (leaveHandler s).imr = s.imr := rfl
@[simp] theorem leaveHandler_sz : (leaveHandler s).sz = s.sz := rfl
@[simp] theorem leaveHandler_prio : (leaveHandler s).prio = s.prio := rfl
@[simp] theorem leaveHandler_mbar : (leaveHandler s).mbar = s.mbar := rfl
@[simp] theorem leaveHandler_physOffset : (leaveHandler s).physOffset = s.physOffset := rfl
@[simp] theorem leaveHandler_allocPtr : (leaveHandler s).allocPtr = s.allocPtr := rfl
@[simp] theorem leaveHandler_rt : (leaveHandler s).rt = s.rt := rfl
@[simp] theorem leaveHandler_ht : (leaveHandler s).ht = s.ht := rfl
@[simp] theorem leaveHandler_runFlag : (leaveHandler s).runFlag = s.runFlag := rfl
@[simp] theorem leaveHandler_configured : (leaveHandler s).configured = s.configured := rfl
@[simp] theorem leaveHandler_dmxActive : (leaveHandler s).dmxActive = s.dmxActive := rfl
@[simp] theorem leaveHandler_dmxWait : (leaveHandler s).dmxWait = false := rfl
@[simp] theorem leaveHandler_dmxSnap : (leaveHandler s).dmxSnap = s.dmxSnap := rfl
@[simp] theorem leaveHandler_dmxIdx : (leaveHandler s).dmxIdx = s.dmxIdx := rfl
@[simp] theorem leaveHandler_dspId : (leaveHandler s).dspId = s.dspId := rfl
@[simp] theorem leaveHandler_dspFn : (leaveHandler s).dspFn = s.dspFn := rfl
@[simp] theorem leaveHandler_dspParam : (leaveHandler s).dspParam = s.dspParam := rfl
@[simp] theorem leaveHandler_engCur : (leaveHandler s).engCur = s.engCur := rfl
@[simp] theorem leaveHandler_mem : (leaveHandler s).mem = s.mem := rfl
@[simp] theorem leaveHandler_inputs : (leaveHandler s).inputs = s.inputs := rfl
@[simp] theorem leaveHandler_dispatchLog : (leaveHandler s).dispatchLog = s.dispatchLog := rfl

/-! ### `writeArg` -/

@[simp] theorem writeArg_cfg (n : Fin 6) (v : Word) : (writeArg n v s).cfg = s.cfg := rfl
@[simp] theorem writeArg_args (n : Fin 6) (v : Word) : (writeArg n v s).args = s.args.set n v := rfl
@[simp] theorem writeArg_argWritten (n : Fin 6) (v : Word) : (writeArg n v s).argWritten = s.argWritten.set n true := rfl
@[simp] theorem writeArg_res (n : Fin 6) (v : Word) : (writeArg n v s).res = s.res := rfl
@[simp] theorem writeArg_ret1 (n : Fin 6) (v : Word) : (writeArg n v s).ret1 = s.ret1 := rfl
@[simp] theorem writeArg_cmd (n : Fin 6) (v : Word) : (writeArg n v s).cmd = s.cmd := rfl
@[simp] theorem writeArg_apiInit (n : Fin 6) (v : Word) : (writeArg n v s).apiInit = s.apiInit := rfl
@[simp] theorem writeArg_glueInit (n : Fin 6) (v : Word) : (writeArg n v s).glueInit = s.glueInit := rfl
@[simp] theorem writeArg_fatal (n : Fin 6) (v : Word) : (writeArg n v s).fatal = s.fatal := rfl
@[simp] theorem writeArg_fatalReason (n : Fin 6) (v : Word) : (writeArg n v s).fatalReason = s.fatalReason := rfl
@[simp] theorem writeArg_tcr (n : Fin 6) (v : Word) : (writeArg n v s).tcr = s.tcr := rfl
@[simp] theorem writeArg_ipr (n : Fin 6) (v : Word) : (writeArg n v s).ipr = s.ipr := rfl
@[simp] theorem writeArg_imr (n : Fin 6) (v : Word) : (writeArg n v s).imr = s.imr := rfl
@[simp] theorem writeArg_sz (n : Fin 6) (v : Word) : (writeArg n v s).sz = s.sz := rfl
@[simp] theorem writeArg_prio (n : Fin 6) (v : Word) : (writeArg n v s).prio = s.prio := rfl
@[simp] theorem writeArg_mbar (n : Fin 6) (v : Word) : (writeArg n v s).mbar = s.mbar := rfl
@[simp] theorem writeArg_physOffset (n : Fin 6) (v : Word) : (writeArg n v s).physOffset = s.physOffset := rfl
@[simp] theorem writeArg_allocPtr (n : Fin 6) (v : Word) : (writeArg n v s).allocPtr = s.allocPtr := rfl
@[simp] theorem writeArg_rt (n : Fin 6) (v : Word) : (writeArg n v s).rt = s.rt := rfl
@[simp] theorem writeArg_ht (n : Fin 6) (v : Word) : (writeArg n v s).ht = s.ht := rfl
@[simp] theorem writeArg_runFlag (n : Fin 6) (v : Word) : (writeArg n v s).runFlag = s.runFlag := rfl
@[simp] theorem writeArg_configured (n : Fin 6) (v : Word) : (writeArg n v s).configured = s.configured := rfl
@[simp] theorem writeArg_dmxActive (n : Fin 6) (v : Word) : (writeArg n v s).dmxActive = s.dmxActive := rfl
@[simp] theorem writeArg_dmxWait (n : Fin 6) (v : Word) : (writeArg n v s).dmxWait = s.dmxWait := rfl
@[simp] theorem writeArg_dmxSnap (n : Fin 6) (v : Word) : (writeArg n v s).dmxSnap = s.dmxSnap := rfl
@[simp] theorem writeArg_dmxIdx (n : Fin 6) (v : Word) : (writeArg n v s).dmxIdx = s.dmxIdx := rfl
@[simp] theorem writeArg_dspId (n : Fin 6) (v : Word) : (writeArg n v s).dspId = s.dspId := rfl
@[simp] theorem writeArg_dspFn (n : Fin 6) (v : Word) : (writeArg n v s).dspFn = s.dspFn := rfl
@[simp] theorem writeArg_dspParam (n : Fin 6) (v : Word) : (writeArg n v s).dspParam = s.dspParam := rfl
@[simp] theorem writeArg_engCur (n : Fin 6) (v : Word) : (writeArg n v s).engCur = s.engCur := rfl
@[simp] theorem writeArg_mem (n : Fin 6) (v : Word) : (writeArg n v s).mem = s.mem := rfl
@[simp] theorem writeArg_inputs (n : Fin 6) (v : Word) : (writeArg n v s).inputs = s.inputs := rfl
@[simp] theorem writeArg_dispatchLog (n : Fin 6) (v : Word) : (writeArg n v s).dispatchLog = s.dispatchLog := rfl

end Sys2Proof.Machine
end

