-- ==== Sys2Proof/Laws/Memory.lean ====
section
/-! SUPPORT. The laws of the shared memory: reads after writes, and that every operation keeps the
canonical form. -/

namespace Sys2Proof.Machine

/-! ## One byte -/

theorem Memory.lookup_insert (m : Memory) (a x : Nat) (b : Byte) :
    (m.insert a b).lookup x = if a = x then some b else m.lookup x := by
  induction m with
  | nil => simp [Memory.insert, Memory.lookup]
  | cons c m ih =>
    simp only [Memory.insert]
    split
    · simp [Memory.lookup]
    · split
      · next h => subst h; simp only [Memory.lookup]; split <;> rfl
      · next h =>
        simp only [Memory.lookup, ih]
        split
        · next hc => rw [if_neg (by omega)]
        · rfl

/-- Reading a byte after writing one. -/
theorem Memory.readByte_writeByte (m : Memory) (a x : Word) (b : Byte) :
    (m.writeByte a b).readByte x = if a = x then b else m.readByte x := by
  simp only [Memory.readByte, Memory.writeByte, Memory.lookup_insert, BitVec.toNat_inj]
  split <;> rfl

@[simp] theorem Memory.readByte_writeByte_same (m : Memory) (a : Word) (b : Byte) :
    (m.writeByte a b).readByte a = b := by simp [Memory.readByte_writeByte]

theorem Memory.readByte_writeByte_other (m : Memory) {a x : Word} (b : Byte) (h : x ≠ a) :
    (m.writeByte a b).readByte x = m.readByte x := by
  rw [Memory.readByte_writeByte, if_neg (Ne.symm h)]

/-! ## One word -/

theorem inBytes_four {a x : Word} :
    inBytes a 4 x ↔ x = a ∨ x = a + 1#32 ∨ x = a + 2#32 ∨ x = a + 3#32 := by
  unfold inBytes
  bv_omega

/-- A word write leaves every byte outside its four alone. -/
theorem Memory.readByte_writeWord_other (m : Memory) {a x : Word} (v : Word) (h : ¬inBytes a 4 x) :
    (m.writeWord a v).readByte x = m.readByte x := by
  rw [inBytes_four] at h
  simp only [not_or] at h
  simp only [Memory.writeWord, Memory.readByte_writeByte]
  simp [Ne.symm h.1, Ne.symm h.2.1, Ne.symm h.2.2.1, Ne.symm h.2.2.2]

/-- A word is its four bytes, most significant first (R41). -/
theorem beByte_join (v : Word) : beByte v 0 ++ beByte v 1 ++ beByte v 2 ++ beByte v 3 = v := by
  apply BitVec.eq_of_getLsbD_eq
  intro i hi
  simp only [beByte, BitVec.getLsbD_append, BitVec.getLsbD_extractLsb']
  by_cases h0 : i < 8
  · simp [h0]
  · by_cases h1 : i < 16
    · have : 8 + (i - 8) = i := by omega
      have h' : i - 8 < 8 := by omega
      simp [h0, h', this]
    · by_cases h2 : i < 24
      · have : 16 + (i - 8 - 8) = i := by omega
        have h' : i - 8 - 8 < 8 := by omega
        have h'' : ¬i - 8 < 8 := by omega
        simp [h0, h', h'', this]
      · have : 24 + (i - 8 - 8 - 8) = i := by omega
        have h' : i - 8 - 8 - 8 < 8 := by omega
        have h'' : ¬i - 8 - 8 < 8 := by omega
        have h3 : ¬i - 8 < 8 := by omega
        simp [h0, h', h'', h3, this]

/-- Byte `k` of a word just written. -/
theorem Memory.readByte_writeWord_same (m : Memory) (a v : Word) :
    (m.writeWord a v).readByte a = beByte v 0 ∧
      (m.writeWord a v).readByte (a + 1#32) = beByte v 1 ∧
      (m.writeWord a v).readByte (a + 2#32) = beByte v 2 ∧
      (m.writeWord a v).readByte (a + 3#32) = beByte v 3 := by
  have e1 : a + 1#32 ≠ a := by bv_omega
  have e2 : a + 2#32 ≠ a := by bv_omega
  have e3 : a + 3#32 ≠ a := by bv_omega
  have e4 : a + 2#32 ≠ a + 1#32 := by bv_omega
  have e5 : a + 3#32 ≠ a + 1#32 := by bv_omega
  have e6 : a + 3#32 ≠ a + 2#32 := by bv_omega
  simp only [Memory.writeWord, Memory.readByte_writeByte]
  simp [e1, e2, e3, e4, e5, e6]

/-- Reading back the word just written. -/
@[simp] theorem Memory.readWord_writeWord_same (m : Memory) (a v : Word) :
    (m.writeWord a v).readWord a = v := by
  obtain ⟨h0, h1, h2, h3⟩ := m.readByte_writeWord_same a v
  rw [Memory.readWord, h0, h1, h2, h3, beByte_join]

/-- A word is determined by its four bytes. -/
theorem Memory.readWord_congr {m m' : Memory} {a : Word}
    (h : ∀ x, inBytes a 4 x → m.readByte x = m'.readByte x) : m.readWord a = m'.readWord a := by
  simp only [Memory.readWord]
  rw [h a (inBytes_four.2 (.inl rfl)), h _ (inBytes_four.2 (.inr (.inl rfl))),
    h _ (inBytes_four.2 (.inr (.inr (.inl rfl)))), h _ (inBytes_four.2 (.inr (.inr (.inr rfl))))]

/-- A word write leaves every word that shares no byte with it alone. -/
theorem Memory.readWord_writeWord_other (m : Memory) {a x : Word} (v : Word)
    (h : ∀ y, inBytes x 4 y → ¬inBytes a 4 y) : (m.writeWord a v).readWord x = m.readWord x :=
  Memory.readWord_congr fun y hy => m.readByte_writeWord_other v (h y hy)

/-- Two different multiples of 4 name words that share no byte. -/
theorem aligned_words_apart {a x : Word} (ha : a.toNat % 4 = 0) (hx : x.toNat % 4 = 0) (h : x ≠ a) :
    ∀ y, inBytes x 4 y → ¬inBytes a 4 y := by
  intro y hy hy'
  unfold inBytes at hy hy'
  bv_omega

/-! ## The canonical form -/

theorem Memory.wf_tail {c : Host.Cell} {m : Memory} (h : Memory.wf (c :: m) = true) :
    Memory.wf m = true := by
  cases m with
  | nil => rfl
  | cons d m => simp only [Memory.wf, Bool.and_eq_true] at h; exact h.2

theorem Memory.wf_head_lt {c : Host.Cell} {m : Memory} (h : Memory.wf (c :: m) = true) :
    c.1 < 2 ^ 32 := by
  induction m generalizing c with
  | nil => simpa [Memory.wf] using h
  | cons d m ih =>
    simp only [Memory.wf, Bool.and_eq_true, decide_eq_true_eq] at h
    exact h.1.trans (ih h.2)

/-- A cell may stand before `m` when it lies below `m`'s first address. -/
theorem Memory.wf_cons {c : Host.Cell} {m : Memory} (hc : c.1 < 2 ^ 32) (hm : Memory.wf m = true)
    (h : ∀ d ∈ m.head?, c.1 < d.1) : Memory.wf (c :: m) = true := by
  cases m with
  | nil => simpa [Memory.wf] using hc
  | cons d m =>
    simp only [Memory.wf, Bool.and_eq_true, decide_eq_true_eq]
    exact ⟨h d (by simp), hm⟩

theorem Memory.head_insert {m : Memory} {a : Nat} {b : Byte} :
    ∀ d ∈ (m.insert a b).head?, d.1 = a ∨ ∃ e ∈ m.head?, d.1 = e.1 := by
  cases m with
  | nil => simp [Memory.insert]
  | cons c m =>
    simp only [Memory.insert]
    split
    · simp
    · split <;> simp

theorem Memory.wf_insert {m : Memory} {a : Nat} {b : Byte} (ha : a < 2 ^ 32)
    (hm : Memory.wf m = true) : Memory.wf (m.insert a b) = true := by
  induction m with
  | nil => simpa [Memory.insert, Memory.wf] using ha
  | cons c m ih =>
    simp only [Memory.insert]
    split
    · next h => exact Memory.wf_cons ha hm (by simpa using h)
    · split
      · next h =>
        refine Memory.wf_cons ha (Memory.wf_tail hm) ?_
        intro d hd
        cases m with
        | nil => simp at hd
        | cons e m =>
          simp only [List.head?_cons, Option.mem_def, Option.some.injEq] at hd
          simp only [Memory.wf, Bool.and_eq_true, decide_eq_true_eq] at hm
          subst hd
          exact h ▸ hm.1
      · next h1 h2 =>
        refine Memory.wf_cons (Memory.wf_head_lt hm) (ih (Memory.wf_tail hm)) ?_
        intro d hd
        rcases Memory.head_insert d hd with h | ⟨e, he, h⟩
        · omega
        · cases m with
          | nil => simp at he
          | cons e' m =>
            simp only [List.head?_cons, Option.mem_def, Option.some.injEq] at he
            simp only [Memory.wf, Bool.and_eq_true, decide_eq_true_eq] at hm
            rw [h, ← he]
            exact hm.1

theorem Memory.wf_writeByte {m : Memory} (a : Word) (b : Byte) (hm : Memory.wf m = true) :
    Memory.wf (m.writeByte a b) = true := Memory.wf_insert a.isLt hm

theorem Memory.wf_writeWord {m : Memory} (a v : Word) (hm : Memory.wf m = true) :
    Memory.wf (m.writeWord a v) = true := by
  unfold Memory.writeWord
  exact Memory.wf_writeByte _ _ (Memory.wf_writeByte _ _ (Memory.wf_writeByte _ _
    (Memory.wf_writeByte _ _ hm)))

theorem wf_fillBd (e : RingEntry) (i : Nat) (status : Word) {m : Memory} (hm : Memory.wf m = true) :
    Memory.wf (fillBd e i status m) = true := by
  unfold fillBd
  have h := Memory.wf_writeWord (bdAddr e i + 4#32) 0#32 (Memory.wf_writeWord (bdAddr e i) status hm)
  split
  · exact Memory.wf_writeWord _ _ h
  · exact h

theorem wf_fillBds (e : RingEntry) (status : Word) (n : Nat) {m : Memory} (hm : Memory.wf m = true) :
    Memory.wf (fillBds e status n m) = true := by
  induction n with
  | zero => exact hm
  | succ n ih =>
    simp only [fillBds, List.range_succ, List.foldl_append, List.foldl_cons, List.foldl_nil]
    exact wf_fillBd e n status ih

theorem wf_drdWalk (x : BitVec 5) (as : List Word) (p : Bool) (n : Nat) {m : Memory}
    (hm : Memory.wf m = true) : Memory.wf (drdWalk x as p n m).2 = true := by
  induction as generalizing p n m with
  | nil => exact hm
  | cons a as ih =>
    simp only [drdWalk]
    split
    · exact ih _ _ hm
    · split
      · exact ih _ _ hm
      · exact ih _ _ (Memory.wf_writeWord _ _ hm)

/-- The memory right after reset has the canonical form. -/
theorem wf_reset (c : Config) : Memory.wf (State.resetWith c).mem = true := rfl

/-- In canonical form nothing at or below the first address is listed after it. -/
theorem Memory.lookup_below {m : Memory} {c : Host.Cell} (h : Memory.wf (c :: m) = true) :
    ∀ a ≤ c.1, m.lookup a = none := by
  induction m generalizing c with
  | nil => intros; rfl
  | cons d m ih =>
    intro a ha
    have hd : c.1 < d.1 := by
      simp only [Memory.wf, Bool.and_eq_true, decide_eq_true_eq] at h; exact h.1
    rw [Memory.lookup, if_neg (by omega)]
    exact ih (Memory.wf_tail h) a (by omega)

/-- Equal reads are equal data: two canonical memories that list the same bytes are equal. -/
theorem Memory.ext {m m' : Memory} (hm : Memory.wf m = true) (hm' : Memory.wf m' = true)
    (h : ∀ a, m.lookup a = m'.lookup a) : m = m' := by
  induction m generalizing m' with
  | nil =>
    cases m' with
    | nil => rfl
    | cons d m' => simpa [Memory.lookup] using h d.1
  | cons c m ih =>
    cases m' with
    | nil => simpa [Memory.lookup] using h c.1
    | cons d m' =>
      have hc := h c.1
      have hd := h d.1
      have e : c.1 = d.1 := by
        by_contra hne
        rcases Nat.lt_or_gt_of_ne hne with hlt | hlt
        · rw [Memory.lookup, if_pos rfl, Memory.lookup, if_neg (Ne.symm hne),
            Memory.lookup_below hm' c.1 (by omega)] at hc
          exact absurd hc (by simp)
        · rw [Memory.lookup, if_neg hne, Memory.lookup_below hm d.1 (by omega), Memory.lookup,
            if_pos rfl] at hd
          exact absurd hd (by simp)
      have e2 : c.2 = d.2 := by
        rw [Memory.lookup, if_pos rfl, Memory.lookup, if_pos e.symm] at hc
        exact Option.some.inj hc
      have e3 : m = m' := by
        refine ih (Memory.wf_tail hm) (Memory.wf_tail hm') fun a => ?_
        by_cases ha : a = c.1
        · rw [Memory.lookup_below hm a (by omega), Memory.lookup_below hm' a (by omega)]
        · have := h a
          rw [Memory.lookup, if_neg (Ne.symm ha), Memory.lookup, if_neg (by omega)] at this
          exact this
      rw [e3, Prod.ext e e2]

end Sys2Proof.Machine
end

