-- ==== Sys2Proof/Laws/Ops.lean ====
section
/-! SUPPORT. One specification lemma per shared operation: what it can answer, what it changes, what it
leaves alone. -/

namespace Sys2Proof.Machine

/-! ## Ending a command -/

/-- All a command can do: nothing under `FATAL`, its rule otherwise. -/
theorem command_next_iff {s s' : State} {body : State → State} :
    command s body = .next s' ↔
      (s.fatal = true ∧ s' = s) ∨ (s.fatal = false ∧ s' = body s) := by
  unfold command
  cases s.fatal <;> simp [eq_comm]

theorem command_live {s : State} {body : State → State} (h : s.fatal = false) :
    command s body = .next (body s) := by simp [command, h]

theorem command_stopped {s : State} {body : State → State} (h : s.fatal = true) :
    command s body = .next s := by simp [command, h]

theorem taskHandle_lt {t : Nat} (h : t < 16) : taskHandle t = some ⟨t, h⟩ := by simp [taskHandle, h]

theorem taskHandle_ge {t : Nat} (h : 16 ≤ t) : taskHandle t = none := by
  simp [taskHandle, Nat.not_lt.2 h]

theorem taskHandle_eq_some {t : Nat} {u : TaskId} : taskHandle t = some u ↔ t = u.val := by
  unfold taskHandle
  split
  · next h => simp [Fin.ext_iff]
  · next h => simp only [reduceCtorEq, false_iff]; have := u.isLt; omega

theorem withTask_lt {t : Nat} (s : State) (body : TaskId → State) (h : t < 16) :
    withTask t s body = body ⟨t, h⟩ := by simp [withTask, taskHandle_lt h]

theorem withTask_ge {t : Nat} (s : State) (body : TaskId → State) (h : 16 ≤ t) :
    withTask t s body = s.ret invalidArg := by simp [withTask, taskHandle_ge h]

theorem withSource_source {i : Nat} (s body : State) (h : isSource i = true) :
    withSource i s body = body := by simp [withSource, h]

theorem withSource_other {i : Nat} (s body : State) (h : isSource i = false) :
    withSource i s body = s.ret invalidArg := by simp [withSource, h]

/-- The source numbers are 0 to 15, 28 and 31 (`60_exceptions.md` R190). -/
theorem isSource_iff {i : Nat} : isSource i = true ↔ i < 16 ∨ i = 28 ∨ i = 31 := by
  by_cases h : i < 32
  · interval_cases i <;> simp [isSource, srcMask]
  · have : isSource i = false := BitVec.getLsbD_of_ge _ _ (by omega)
    simp only [this, Bool.false_eq_true, false_iff]
    omega

/-! ## Bits -/

theorem getLsbD_one_shiftLeft {i j : Nat} (hj : j < 32) :
    (1#32 <<< i).getLsbD j = decide (j = i) := by
  simp only [BitVec.getLsbD_shiftLeft, BitVec.getLsbD_one]
  by_cases h : j < i
  · simp [h]; omega
  · simp [hj, h]; omega

theorem bitSet_getLsbD (v : Word) (i : Nat) {j : Nat} (hj : j < 32) :
    (bitSet v i).getLsbD j = (v.getLsbD j || decide (j = i)) := by
  simp [bitSet, getLsbD_one_shiftLeft hj]

theorem bitClear_getLsbD (v : Word) (i : Nat) {j : Nat} (hj : j < 32) :
    (bitClear v i).getLsbD j = (v.getLsbD j && !decide (j = i)) := by
  simp only [bitClear, BitVec.getLsbD_and, BitVec.getLsbD_not, hj, decide_true, Bool.true_and,
    getLsbD_one_shiftLeft hj]

/-- `EN` set, every other bit preserved. -/
theorem tcrEnable_getLsbD (v : Half) {k : Nat} (hk : k < 16) :
    (tcrEnable v).getLsbD k = (v.getLsbD k || decide (k = 15)) := by
  simp only [tcrEnable, BitVec.getLsbD_or]
  interval_cases k <;> simp

/-- `EN` cleared, every other bit preserved. -/
theorem tcrDisable_getLsbD (v : Half) {k : Nat} (hk : k < 16) :
    (tcrDisable v).getLsbD k = (v.getLsbD k && !decide (k = 15)) := by
  simp only [tcrDisable, BitVec.getLsbD_and]
  interval_cases k <;> simp

/-- `ASE` is bit 7, `AST` bits 3:0, every other bit is preserved. -/
theorem tcrWithAutoStart_getLsbD (ase : Bool) (ast : BitVec 4) (v : Half) {k : Nat} (hk : k < 16) :
    (tcrWithAutoStart ase ast v).getLsbD k =
      if k = 7 then ase else if k < 4 then ast.getLsbD k else v.getLsbD k := by
  simp only [tcrWithAutoStart, BitVec.getLsbD_or, BitVec.getLsbD_and, BitVec.getLsbD_shiftLeft,
    BitVec.getLsbD_setWidth]
  interval_cases k <;> simp

/-- `INIT` is bits 12:8, `HOLD` bit 5, every other bit is preserved. -/
theorem tcrWithInit_getLsbD (init : BitVec 5) (hold : Bool) (v : Half) {k : Nat} (hk : k < 16) :
    (tcrWithInit init hold v).getLsbD k =
      if k = 5 then hold else if 8 ≤ k ∧ k < 13 then init.getLsbD (k - 8) else v.getLsbD k := by
  simp only [tcrWithInit, BitVec.getLsbD_or, BitVec.getLsbD_and, BitVec.getLsbD_shiftLeft,
    BitVec.getLsbD_setWidth]
  interval_cases k <;> simp

/-- Only bits 25:21 of a patched DRD word change. -/
theorem drdWithInit_getLsbD (x : BitVec 5) (w : Word) {k : Nat} (hk : k < 32) :
    (drdWithInit x w).getLsbD k = if 21 ≤ k ∧ k < 26 then x.getLsbD (k - 21) else w.getLsbD k := by
  simp only [drdWithInit, BitVec.getLsbD_or, BitVec.getLsbD_and, BitVec.getLsbD_shiftLeft,
    BitVec.getLsbD_setWidth]
  interval_cases k <;> simp

/-! ## The interrupt words -/

theorem iprValue_setIpr (s : State) (v : Word) : iprValue (s.setIpr v) = v &&& iprMask := by
  simp [iprValue, BitVec.and_assoc]

theorem imrValue_setImr (s : State) (v : Word) : imrValue (s.setImr v) = v ||| ~~~srcMask := by
  simp [imrValue, BitVec.or_assoc]

/-- `EP[i]` is 1 exactly when the source `i` is pending and not masked (`60_exceptions.md` R191). -/
theorem effectivePending_getLsbD (s : State) {i : Nat} (hi : i < 32) :
    (effectivePending s).getLsbD i = (isSource i && (s.ipr.getLsbD i && !s.imr.getLsbD i)) := by
  simp only [effectivePending, iprValue, imrValue, isSource, BitVec.getLsbD_and,
    BitVec.getLsbD_not, BitVec.getLsbD_or, hi, decide_true, Bool.true_and]
  interval_cases i <;> simp [srcMask, iprMask]

/-- A bit that is no source number never shows in `EP` (R18). -/
theorem effectivePending_nonsource (s : State) {i : Nat} (h : isSource i = false) :
    (effectivePending s).getLsbD i = false := by
  by_cases hi : i < 32
  · rw [effectivePending_getLsbD s hi, h, Bool.false_and]
  · exact BitVec.getLsbD_of_ge _ _ (by omega)

/-- The scan of `TINTSRC`: the highest task below `n` whose bit is set. -/
theorem highestTask_eq_some {w : Word} {n t : Nat} :
    highestTask w n = some t ↔ t < n ∧ w.getLsbD t = true ∧ ∀ u, t < u → u < n → w.getLsbD u = false := by
  induction n with
  | zero => simp [highestTask]
  | succ n ih =>
    simp only [highestTask]
    split
    · next h =>
      simp only [Option.some.injEq]
      constructor
      · rintro rfl; exact ⟨by omega, h, fun u h1 h2 => by omega⟩
      · rintro ⟨h1, _, h3⟩
        by_contra hne
        rw [h3 n (by omega) (by omega)] at h
        exact absurd h (by simp)
    · next h =>
      rw [ih]
      constructor
      · rintro ⟨h1, h2, h3⟩
        refine ⟨by omega, h2, fun u hu hn => ?_⟩
        by_cases e : u = n
        · simpa [e] using h
        · exact h3 u hu (by omega)
      · rintro ⟨h1, h2, h3⟩
        have : t ≠ n := by rintro rfl; exact h h2
        exact ⟨by omega, h2, fun u hu hn => h3 u hu (by omega)⟩

theorem highestTask_eq_none {w : Word} {n : Nat} :
    highestTask w n = none ↔ ∀ u < n, w.getLsbD u = false := by
  induction n with
  | zero => simp [highestTask]
  | succ n ih =>
    simp only [highestTask]
    split
    · next h =>
      simp only [reduceCtorEq, false_iff]
      intro h'
      rw [h' n (by omega)] at h
      exact absurd h (by simp)
    · next h =>
      rw [ih]
      constructor
      · intro h' u hu
        by_cases e : u = n
        · simpa [e] using h
        · exact h' u (by omega)
      · intro h' u hu; exact h' u (by omega)

/-- The scan of the demultiplexer: the smallest set bit at or above the index. -/
theorem nextSource_some {w : Word} {idx : Nat} {j : Fin 32} (h : nextSource w idx = some j) :
    idx ≤ j.val ∧ w.getLsbD j.val = true := by
  have := List.find?_some h
  simpa using this

theorem nextSource_none {w : Word} {idx : Nat} (h : nextSource w idx = none) :
    ∀ j, idx ≤ j → j < 32 → w.getLsbD j = false := by
  intro j h1 h2
  have := (List.find?_eq_none.1 h) ⟨j, h2⟩ (List.mem_finRange _)
  simpa [h1] using this

/-- No set bit lies between the index and the source found. -/
theorem nextSource_first {w : Word} {idx : Nat} {j : Fin 32} (h : nextSource w idx = some j) :
    ∀ k, idx ≤ k → k < j.val → w.getLsbD k = false := by
  intro k h1 h2
  obtain ⟨_, as, bs, hl, hb⟩ := List.find?_eq_some_iff_append.1 h
  have hk : k < 32 := by have := j.isLt; omega
  have hsort : (List.finRange 32).Pairwise (· < ·) := by decide
  have hmem : (⟨k, hk⟩ : Fin 32) ∈ List.finRange 32 := List.mem_finRange _
  rw [hl] at hmem hsort
  rcases List.mem_append.1 hmem with hm | hm
  · have := hb _ hm
    simpa [h1] using this
  · exfalso
    rcases List.mem_cons.1 hm with he | he
    · have : k = j.val := congrArg Fin.val he
      omega
    · have := (List.pairwise_cons.1 (List.pairwise_append.1 hsort).2.1).1 _ he
      have : j.val < k := this
      omega

/-! ## Cursors and policy -/

theorem cursorNext_toNat (i n : Half) (hn : 0 < n.toNat) :
    (cursorNext i n).toNat = (i.toNat + 1) % n.toNat := by
  have := n.isLt
  have : (i.toNat + 1) % n.toNat < n.toNat := Nat.mod_lt _ hn
  rw [cursorNext, BitVec.toNat_ofNat, Nat.mod_eq_of_lt (by omega)]

theorem cursorNext_lt (i n : Half) (hn : 0 < n.toNat) : (cursorNext i n).toNat < n.toNat := by
  rw [cursorNext_toNat i n hn]
  exact Nat.mod_lt _ hn

/-! ## The ring -/

/-- The start-slot write changes memory and the engine's cursor, nothing else. -/
theorem writeStartSlot_eq (s : State) (t : TaskId) :
    s.writeStartSlot t =
      { s with mem := s.mem.writeWord s.rt[t].startReg (dev s s.rt[t].base),
               engCur := s.engCur.set t 0#16 } := rfl

/-- The allocation changes one ring entry, `ALLOC_PTR` and the `basePtr` slot. -/
theorem allocRing_eq (s : State) (t : TaskId) (np : BitVec 2) (cfg : Byte)
    (baseSlot startSlot maxBD : Word) :
    s.allocRing t np cfg baseSlot startSlot maxBD =
      { s with
        rt := s.rt.set t
          { s.rt[t] with
            base := s.allocPtr, capBD := maxBD.setWidth 16, numPtr := np, apiConfig := cfg,
            startReg := startSlot },
        allocPtr := s.allocPtr + BitVec.ofNat 32 (maxBD.toNat * bdSize np),
        mem := s.mem.writeWord baseSlot (dev s s.allocPtr) } := rfl

/-- The ring entry after arming: count 0, cursors 0, the new length. -/
def armedEntry (e : RingEntry) (numBD : Word) : RingEntry :=
  { e with inUse := 0#16, numBD := numBD.setWidth 16, wr := 0#16, rd := 0#16 }

/-- Arming a ring changes its entry, the engine's cursor and memory, nothing else; its last write is
the start slot. -/
theorem armRing_eq (s : State) (t : TaskId) (lastSlot status numBD : Word) :
    s.armRing t lastSlot status numBD =
      { s with
        rt := s.rt.set t (armedEntry s.rt[t] numBD),
        engCur := s.engCur.set t 0#16,
        mem := (fillBds (armedEntry s.rt[t] numBD) status numBD.toNat
          (s.mem.writeWord lastSlot (lastBdDev s (armedEntry s.rt[t] numBD) numBD))).writeWord
            s.rt[t].startReg (dev s s.rt[t].base) } := by
  simp [State.armRing, State.writeStartSlot, State.memWrite, State.setRing, State.setEngCur, armedEntry,
    dev]

/-- A BD's bytes. -/
theorem readByte_fillBd_other (e : RingEntry) (i : Nat) (status : Word) (m : Memory) {x : Word}
    (h : ¬inBytes (bdAddr e i) (bdSize e.numPtr) x) (hp : e.numPtr = 1#2 ∨ e.numPtr = 2#2) :
    (fillBd e i status m).readByte x = m.readByte x := by
  unfold inBytes at h
  rcases hp with hp | hp <;> simp only [fillBd, hp, bdSize] at h ⊢
  · simp only [show (1#2 : BitVec 2) ≠ 2#2 by decide, if_false]
    simp only [show 4 * (1 + (1#2 : BitVec 2).toNat) = 8 by decide] at h
    rw [Memory.readByte_writeWord_other, Memory.readByte_writeWord_other] <;>
      · unfold inBytes; bv_omega
  · simp only [if_true]
    simp only [show 4 * (1 + (2#2 : BitVec 2).toNat) = 12 by decide] at h
    rw [Memory.readByte_writeWord_other, Memory.readByte_writeWord_other,
      Memory.readByte_writeWord_other] <;>
      · unfold inBytes; bv_omega

/-- Filling a ring leaves every byte outside its BDs alone. -/
theorem readByte_fillBds_other (e : RingEntry) (status : Word) (n : Nat) (m : Memory) {x : Word}
    (hp : e.numPtr = 1#2 ∨ e.numPtr = 2#2)
    (h : ∀ i < n, ¬inBytes (bdAddr e i) (bdSize e.numPtr) x) :
    (fillBds e status n m).readByte x = m.readByte x := by
  induction n with
  | zero => rfl
  | succ n ih =>
    simp only [fillBds, List.range_succ, List.foldl_append, List.foldl_cons, List.foldl_nil]
    rw [readByte_fillBd_other e n status _ (h n (by omega)) hp]
    exact ih fun i hi => h i (by omega)

/-- The DRD walk leaves every byte outside the listed words alone. -/
theorem readByte_drdWalk_other (x : BitVec 5) (as : List Word) (p : Bool) (n : Nat) (m : Memory)
    {y : Word} (h : ∀ a ∈ as, ¬inBytes a 4 y) : (drdWalk x as p n m).2.readByte y = m.readByte y := by
  induction as generalizing p n m with
  | nil => rfl
  | cons a as ih =>
    have h' : ∀ a ∈ as, ¬inBytes a 4 y := fun b hb => h b (List.mem_cons_of_mem _ hb)
    simp only [drdWalk]
    split
    · exact ih _ _ _ h'
    · split
      · exact ih _ _ _ h'
      · rw [ih _ _ _ h', Memory.readByte_writeWord_other _ _ (h a (List.mem_cons_self ..))]

/-- The walk's count grows by at most the length of the list. -/
theorem drdWalk_count_le (x : BitVec 5) (as : List Word) (p : Bool) (n : Nat) (m : Memory) :
    n ≤ (drdWalk x as p n m).1 ∧ (drdWalk x as p n m).1 ≤ n + as.length := by
  induction as generalizing p n m with
  | nil => exact ⟨Nat.le_refl _, Nat.le_refl _⟩
  | cons a as ih =>
    simp only [drdWalk, List.length_cons]
    split
    · have := ih false n m; omega
    · split
      · have := ih (drdExt (m.readWord a)) n m; omega
      · have := ih (drdExt (m.readWord a)) (n + 1) (m.writeWord a (drdWithInit x (m.readWord a)))
        omega

/-! ## The environment's stores -/

theorem andThen_next_iff {A B : Type} {o : Host.Outcome A Fault Refusal}
    {f : A → Host.Outcome B Fault Refusal} {b : B} :
    andThen o f = .next b ↔ ∃ a, o = .next a ∧ f a = .next b := by
  cases o <;> simp [andThen]

@[simp] theorem andThen_next {A B : Type} (a : A) (f : A → Host.Outcome B Fault Refusal) :
    andThen (.next a) f = f a := rfl

theorem andThen_fault_iff {A B : Type} {o : Host.Outcome A Fault Refusal}
    {f : A → Host.Outcome B Fault Refusal} {r : Fault} :
    andThen o f = .fault r ↔ o = .fault r ∨ ∃ a, o = .next a ∧ f a = .fault r := by
  cases o <;> simp [andThen]

/-- All a byte store that goes on can do: one byte of memory, outside the register block. -/
theorem storeByte_next_iff {a : Word} {b : Byte} {s s' : State} :
    storeByte a b s = .next s' ↔
      regCell s a = none ∧ s' = { s with mem := s.mem.writeByte a b } := by
  unfold storeByte
  cases regCell s a with
  | none => exact ⟨fun h => ⟨rfl, by cases h; rfl⟩, fun h => by rw [h.2]⟩
  | some c => exact ⟨nofun, nofun⟩

/-- A byte store stops exactly at a register, and names it. -/
theorem storeByte_fault_iff {a : Word} {b : Byte} {s : State} {f : Fault} :
    storeByte a b s = .fault f ↔ (regCell s a).isSome = true ∧ f = .registerBlockWrite a := by
  unfold storeByte
  cases regCell s a with
  | none => exact ⟨nofun, nofun⟩
  | some c => exact ⟨fun h => ⟨rfl, by cases h; rfl⟩, fun h => by rw [h.2]⟩

/-- A byte store changes only memory. -/
theorem storeByte_frame {a : Word} {b : Byte} {s s' : State} (h : storeByte a b s = .next s') :
    s' = { s with mem := s'.mem } := by
  rw [(storeByte_next_iff.mp h).2]

/-- Where the block stands does not depend on memory. -/
@[simp] theorem regCell_mem (s : State) (m : Memory) (a : Word) :
    regCell { s with mem := m } a = regCell s a := rfl

/-- All a word store that goes on can do: its four bytes lie outside the register block and memory
holds the word. -/
theorem storeWord_next_iff {a v : Word} {s s' : State} :
    storeWord a v s = .next s' ↔
      (regCell s a = none ∧ regCell s (a + 1#32) = none ∧ regCell s (a + 2#32) = none ∧
        regCell s (a + 3#32) = none) ∧ s' = { s with mem := s.mem.writeWord a v } := by
  simp only [storeWord, andThen_next_iff, storeByte_next_iff]
  constructor
  · rintro ⟨_, ⟨_, ⟨_, ⟨h0, rfl⟩, h1, rfl⟩, h2, rfl⟩, h3, rfl⟩
    exact ⟨⟨h0, h1, h2, h3⟩, rfl⟩
  · rintro ⟨⟨h0, h1, h2, h3⟩, rfl⟩
    exact ⟨_, ⟨_, ⟨_, ⟨h0, rfl⟩, h1, rfl⟩, h2, rfl⟩, h3, rfl⟩

/-! ## Host-side sequences -/

@[simp] theorem runMoves_nil (s : State) : runMoves [] s = .next s := rfl

@[simp] theorem runMoves_cons (m : Input) (ms : List Input) (s : State) :
    runMoves (m :: ms) s = andThen (applyInput m s) (runMoves ms) := rfl

theorem runMoves_append (ms ns : List Input) (s : State) :
    runMoves (ms ++ ns) s = andThen (runMoves ms s) (runMoves ns) := by
  induction ms generalizing s with
  | nil => rfl
  | cons m ms ih =>
    simp only [List.cons_append, runMoves_cons]
    cases applyInput m s with
    | next s1 => exact ih s1
    | fault r => rfl
    | refused r => rfl

@[simp] theorem interleave_quiet (ms : List Input) : interleave ms [] = ms := by cases ms <;> rfl

/-- All a stretch of a setup that goes on can do: its moves are made, and then the panic ends the setup
or the next stretch follows. -/
theorem setupStage_next_iff {ms : List Input} {env : List (List Input)} {s : State}
    {rest : State → Host.Outcome (SetupEnd × State) Fault Refusal} {r : SetupEnd × State} :
    setupStage ms env s rest = .next r ↔ ∃ s', runMoves (interleave ms env) s = .next s' ∧
      if s'.fatal = true then r = (.panicked, s') else rest s' = .next r := by
  unfold setupStage panicLine
  rw [andThen_next_iff]
  refine exists_congr fun s' => and_congr_right fun _ => ?_
  split
  · exact ⟨fun h => by cases h; rfl, fun h => by rw [h]⟩
  · exact Iff.rfl

/-- A drain with no poll left. -/
@[simp] theorem bdDrain_nil (t : Nat) (s : State) : bdDrain t [] s = .next ([], s) := rfl

/-- All a poll of a drain that goes on can do: the others move, `BDRELEASE` is written, and the loop
ends there or goes on with the index it got. -/
theorem bdDrain_cons_next_iff {t : Nat} {others : List Input} {env : List (List Input)} {s : State}
    {r : List Word × State} :
    bdDrain t (others :: env) s = .next r ↔ ∃ s1 s2, runMoves others s = .next s1 ∧
      writeCmd (encode (.bdrelease t)) s1 = .next s2 ∧
      if s2.fatal = true ∨ s2.res.msb = true then r = ([], s2)
      else ∃ r', bdDrain t env s2 = .next r' ∧ r = (s2.res :: r'.1, r'.2) := by
  rw [bdDrain]
  simp only [panicLine, andThen_next_iff]
  refine ⟨fun ⟨s1, h1, s2, h2, h⟩ => ⟨s1, s2, h1, h2, ?_⟩, fun ⟨s1, s2, h1, h2, h⟩ => ⟨s1, h1, s2, h2, ?_⟩⟩
  all_goals
    by_cases hc : s2.fatal = true ∨ s2.res.msb = true
    · have hb : (s2.fatal || s2.res.msb) = true := by simpa using hc
      simp only [hb, hc, if_true] at h ⊢
      cases h; rfl
    · have hb : (s2.fatal || s2.res.msb) = false := by simpa using hc
      simp only [hb, hc, if_false, Bool.false_eq_true, andThen_next_iff] at h ⊢
      obtain ⟨r', h3, h4⟩ := h
      exact ⟨r', h3, by cases h4; rfl⟩

/-- Reset keeps memory, the parameters, the schedule and the log, and nothing else. -/
theorem resetInput_eq (s : State) :
    resetInput s =
      { State.resetWith s.cfg with mem := s.mem, inputs := s.inputs, dispatchLog := s.dispatchLog } :=
  rfl

/-- The moves of the schedule are taken one at a time. -/
theorem step_cons {s : State} {m : Input} {rest : List Input} (h : s.inputs = m :: rest) :
    step s = applyInput m { s with inputs := rest } := by simp [step, h]

theorem step_idle {s : State} (h : s.inputs = []) : step s = .next s := by simp [step, h]

end Sys2Proof.Machine
end

