-- ==== Sys2Proof/Laws/PerInstr.lean ====
section
/-! SUPPORT. The encoding of every command (`30_encoding.md` R62, R65): its `OP` byte is the table's and
its must-be-zero bits are 0. -/

namespace Sys2Proof.Laws

/-! ## The fields of an assembled word -/

theorem opField_assembled (o : Byte) (t : BitVec 8) (m : Half) : opField (o ++ t ++ m) = o := by
  apply BitVec.eq_of_getLsbD_eq
  intro k hk
  simp only [opField, BitVec.getLsbD_extractLsb', BitVec.getLsbD_append, hk, decide_true, Bool.true_and]
  rw [if_neg (by omega), if_neg (by omega)]
  congr 1
  omega

theorem tidField_assembled (o : Byte) (t : BitVec 8) (m : Half) : tidField (o ++ t ++ m) = t.toNat := by
  have : (o ++ t ++ m).extractLsb' 16 8 = t := by
    apply BitVec.eq_of_getLsbD_eq
    intro k hk
    simp only [BitVec.getLsbD_extractLsb', BitVec.getLsbD_append, hk, decide_true, Bool.true_and]
    rw [if_neg (by omega), if_pos (by omega)]
    congr 1
    omega
  rw [tidField, this]

theorem immField_assembled (o : Byte) (t : BitVec 8) (m : Half) : immField (o ++ t ++ m) = m := by
  apply BitVec.eq_of_getLsbD_eq
  intro k hk
  simp only [immField, BitVec.getLsbD_extractLsb', BitVec.getLsbD_append, hk, decide_true, Bool.true_and,
    Nat.zero_add, if_true]

/-- Below bit 16 an assembled word is its `IMM`. -/
theorem assembled_low (o : Byte) (t : BitVec 8) (m : Half) {k : Nat} (hk : k < 16) :
    (o ++ t ++ m).getLsbD k = m.getLsbD k := by
  rw [BitVec.getLsbD_append, if_pos hk]

/-- A mask within `IMM` sees only `IMM`. -/
theorem assembled_mask_imm (o : Byte) (t : BitVec 8) (m : Half) (mask : Half)
    (h : m &&& mask = 0#16) : (o ++ t ++ m) &&& (0#16 ++ mask) = 0#32 := by
  apply BitVec.eq_of_getLsbD_eq
  intro k hk
  rw [BitVec.getLsbD_and, BitVec.getLsbD_append, BitVec.getLsbD_append (x := (0#16))]
  by_cases h16 : k < 16
  · rw [if_pos h16, if_pos h16, ← BitVec.getLsbD_and, h, BitVec.getLsbD_zero, BitVec.getLsbD_zero]
  · rw [if_neg h16, if_neg h16, BitVec.getLsbD_zero, BitVec.getLsbD_zero, Bool.and_false]

/-- A mask within `TID` and `IMM` of a word whose `TID` is 0 sees only `IMM`. -/
theorem assembled_mask_tid (o : Byte) (m : Half) (mask : Half)
    (h : m &&& mask = 0#16) : (o ++ 0#8 ++ m) &&& (0x00FF#16 ++ mask) = 0#32 := by
  apply BitVec.eq_of_getLsbD_eq
  intro k hk
  rw [BitVec.getLsbD_and, BitVec.getLsbD_append, BitVec.getLsbD_append (x := (0x00FF#16))]
  by_cases h16 : k < 16
  · rw [if_pos h16, if_pos h16, ← BitVec.getLsbD_and, h, BitVec.getLsbD_zero, BitVec.getLsbD_zero]
  · rw [if_neg h16, if_neg h16, BitVec.getLsbD_append, BitVec.getLsbD_zero]
    by_cases h8 : k - 16 < 8
    · rw [if_pos h8, BitVec.getLsbD_zero, Bool.false_and]
    · have : ∀ j, 8 ≤ j → j < 16 → (0x00FF#16).getLsbD j = false := by
        intro j h1 h2
        interval_cases j <;> rfl
      rw [this (k - 16) (by omega) (by omega), Bool.and_false, BitVec.getLsbD_zero]

/-! ## One lemma per command -/

/-- The word of `i` has the opcode of its row and every must-be-zero bit of its format clear. -/
def EncodesFormat.Statement (i : Instr) : Prop :=
  opField (encode i) = opCode (instrOp i) ∧ encode i &&& mbzBits (opFormat (instrOp i)) = 0#32

theorem EncodesFormat.apiinit (vm : Bool) : EncodesFormat.Statement (.apiinit vm) :=
  ⟨opField_assembled _ _ _, assembled_mask_tid _ _ 0xFFFE#16 (by
    apply BitVec.eq_of_getLsbD_eq
    intro k hk
    interval_cases k <;> simp only [instrImm, BitVec.getLsbD_and, BitVec.getLsbD_append] <;> simp)⟩

theorem EncodesFormat.tstart (t : Nat) (ase : Bool) (ast : Nat) (ie : Bool) : EncodesFormat.Statement (.tstart t ase ast ie) :=
  ⟨opField_assembled _ _ _, assembled_mask_imm _ _ _ 0x00FC#16 (by
    apply BitVec.eq_of_getLsbD_eq
    intro k hk
    interval_cases k <;> simp only [instrImm, BitVec.getLsbD_and, BitVec.getLsbD_append] <;> simp)⟩

theorem EncodesFormat.tstop (t : Nat) : EncodesFormat.Statement (.tstop t) :=
  ⟨opField_assembled _ _ _, assembled_mask_imm _ _ _ 0xFFFF#16 BitVec.zero_and⟩

theorem EncodesFormat.tstat (t : Nat) : EncodesFormat.Statement (.tstat t) :=
  ⟨opField_assembled _ _ _, assembled_mask_imm _ _ _ 0xFFFF#16 BitVec.zero_and⟩

theorem EncodesFormat.bdsetup (t : Nat) (np : BitVec 2) (cfg : Byte) : EncodesFormat.Statement (.bdsetup t np cfg) :=
  ⟨opField_assembled _ _ _, assembled_mask_imm _ _ _ 0x00FC#16 (by
    apply BitVec.eq_of_getLsbD_eq
    intro k hk
    interval_cases k <;> simp only [instrImm, BitVec.getLsbD_and, BitVec.getLsbD_append] <;> simp)⟩

theorem EncodesFormat.bdassign (t : Nat) : EncodesFormat.Statement (.bdassign t) :=
  ⟨opField_assembled _ _ _, assembled_mask_imm _ _ _ 0xFFFF#16 BitVec.zero_and⟩

theorem EncodesFormat.bdrelease (t : Nat) : EncodesFormat.Statement (.bdrelease t) :=
  ⟨opField_assembled _ _ _, assembled_mask_imm _ _ _ 0xFFFF#16 BitVec.zero_and⟩

theorem EncodesFormat.bdreset (t : Nat) : EncodesFormat.Statement (.bdreset t) :=
  ⟨opField_assembled _ _ _, assembled_mask_imm _ _ _ 0xFFFF#16 BitVec.zero_and⟩

theorem EncodesFormat.bdget (t idx : Nat) : EncodesFormat.Statement (.bdget t idx) :=
  ⟨opField_assembled _ _ _, assembled_mask_imm _ _ _ 0#16 BitVec.and_zero⟩

theorem EncodesFormat.bdring (t : Nat) : EncodesFormat.Statement (.bdring t) :=
  ⟨opField_assembled _ _ _, assembled_mask_imm _ _ _ 0xFFFF#16 BitVec.zero_and⟩

theorem EncodesFormat.bdinuse (t : Nat) : EncodesFormat.Statement (.bdinuse t) :=
  ⟨opField_assembled _ _ _, assembled_mask_imm _ _ _ 0xFFFF#16 BitVec.zero_and⟩

theorem EncodesFormat.tcfg (g : Nat) (p : Int) : EncodesFormat.Statement (.tcfg g p) :=
  ⟨opField_assembled _ _ _, assembled_mask_imm _ _ _ 0#16 BitVec.and_zero⟩

theorem EncodesFormat.tseti (t : Nat) (init : BitVec 5) (hold : Bool) : EncodesFormat.Statement (.tseti t init hold) :=
  ⟨opField_assembled _ _ _, assembled_mask_imm _ _ _ 0xE0FE#16 (by
    apply BitVec.eq_of_getLsbD_eq
    intro k hk
    interval_cases k <;> simp only [instrImm, BitVec.getLsbD_and, BitVec.getLsbD_append] <;> simp)⟩

theorem EncodesFormat.drdpatch (init : BitVec 5) : EncodesFormat.Statement (.drdpatch init) :=
  ⟨opField_assembled _ _ _, assembled_mask_tid _ _ 0xFFE0#16 (by
    apply BitVec.eq_of_getLsbD_eq
    intro k hk
    interval_cases k <;> simp only [instrImm, BitVec.getLsbD_and, BitVec.getLsbD_append] <;> simp)⟩

theorem EncodesFormat.szset (t : Nat) (src dst : BitVec 2) : EncodesFormat.Statement (.szset t src dst) :=
  ⟨opField_assembled _ _ _, assembled_mask_imm _ _ _ 0xFFF0#16 (by
    apply BitVec.eq_of_getLsbD_eq
    intro k hk
    interval_cases k <;> simp only [instrImm, BitVec.getLsbD_and, BitVec.getLsbD_append] <;> simp)⟩

theorem EncodesFormat.tintclr (i : Nat) : EncodesFormat.Statement (.tintclr i) :=
  ⟨opField_assembled _ _ _, assembled_mask_imm _ _ _ 0xFFFF#16 BitVec.zero_and⟩

theorem EncodesFormat.tintstat (i : Nat) : EncodesFormat.Statement (.tintstat i) :=
  ⟨opField_assembled _ _ _, assembled_mask_imm _ _ _ 0xFFFF#16 BitVec.zero_and⟩

theorem EncodesFormat.tintpend (i : Nat) : EncodesFormat.Statement (.tintpend i) :=
  ⟨opField_assembled _ _ _, assembled_mask_imm _ _ _ 0xFFFF#16 BitVec.zero_and⟩

theorem EncodesFormat.tintsrc : EncodesFormat.Statement .tintsrc :=
  ⟨opField_assembled _ _ _, assembled_mask_tid _ _ 0xFFFF#16 BitVec.zero_and⟩

theorem EncodesFormat.ginit : EncodesFormat.Statement .ginit :=
  ⟨opField_assembled _ _ _, assembled_mask_tid _ _ 0xFFFF#16 BitVec.zero_and⟩

theorem EncodesFormat.girqen (i : Nat) : EncodesFormat.Statement (.girqen i) :=
  ⟨opField_assembled _ _ _, assembled_mask_imm _ _ _ 0xFFFF#16 BitVec.zero_and⟩

theorem EncodesFormat.girqdis (i : Nat) : EncodesFormat.Statement (.girqdis i) :=
  ⟨opField_assembled _ _ _, assembled_mask_imm _ _ _ 0xFFFF#16 BitVec.zero_and⟩

theorem EncodesFormat.ginstall (i : Nat) : EncodesFormat.Statement (.ginstall i) :=
  ⟨opField_assembled _ _ _, assembled_mask_imm _ _ _ 0xFFFF#16 BitVec.zero_and⟩

theorem EncodesFormat.ghdone : EncodesFormat.Statement .ghdone :=
  ⟨opField_assembled _ _ _, assembled_mask_tid _ _ 0xFFFF#16 BitVec.zero_and⟩

end Sys2Proof.Laws
end

