-- ==== Sys2Proof/Tests/Slice0.lean ====
section
/-! SUPPORT. Tests. Expected values are the vectors of `95_test_vectors.md` (its row is named beside
each); the witnesses show that the hypotheses of each statement can be met together. -/

namespace Sys2Proof.Tests

open Sys2Proof.Machine

/-! ## Small states -/

/-- The state after one move, if there is one. -/
def made (m : Input) (s : State) : Option State :=
  match step { s with inputs := [m] } with
  | .next s' => some s'
  | .fault _ => none
  | .refused _ => none

/-- The state after the command word `w`. -/
def ran (w : Word) (s : State) : Option State := made (.cmd w) s

/-- A memory that holds the words listed. -/
def words (l : List (Word × Word)) : Memory := l.foldl (fun m p => m.writeWord p.1 p.2) []

/-- The argument registers. -/
def withArgs (s : State) (a0 a1 a2 a3 a4 a5 : Word) : State :=
  { s with args := ⟨#[a0, a1, a2, a3, a4, a5], rfl⟩ }

/-- "After APIINIT" of `95_test_vectors.md`. -/
def placed : State := { State.reset with apiInit := true, mbar := 0xF0000000#32 }

/-- `placed` with the operands of example S1. -/
def ready : State :=
  withArgs placed 0xF0004010#32 0xF0004014#32 0xF0004018#32 0#32 4#32 8#32

/-- The ring entry of example S1. -/
def ringEntry : RingEntry :=
  { base := 0xF0008000#32, numBD := 4#16, capBD := 8#16, numPtr := 2#2, apiConfig := 0#8,
    startReg := 0xF0004018#32, inUse := 0#16, wr := 0#16, rd := 0#16 }

/-- "Ring 1", with the operands of R110's `BDASSIGN`. -/
def ring1 : State :=
  { withArgs placed 0x00100000#32 0x00200000#32 0x600#32 0x08000000#32 4#32 8#32 with
    rt := State.reset.rt.set 1 ringEntry
    allocPtr := 0xF0008060#32
    mem := words [(0xF0008000#32, 0#32), (0xF000800C#32, 0#32), (0xF0008018#32, 0#32),
      (0xF0008024#32, 0#32)] }

/-- Ring 1 after one assign whose BD is still the engine's. -/
def assigned : State :=
  { ring1 with
    rt := ring1.rt.set 1 { ringEntry with inUse := 1#16, wr := 1#16 }
    mem := words [(0xF0008000#32, 0x48000600#32)] }

/-- The same after `E_BDDONE(1, 0x080005EA)`. -/
def finished : State :=
  { assigned with
    engCur := assigned.engCur.set 1 1#16, mem := words [(0xF0008000#32, 0x080005EA#32)] }

/-- Ring 1 full. -/
def full : State := { ring1 with rt := ring1.rt.set 1 { ringEntry with inUse := 4#16 } }

/-- Every task configured, its TCR `v`. -/
def configuredWith (v : Half) : State :=
  { State.reset with configured := Vector.replicate 16 true, tcr := Vector.replicate 16 v }

/-- The words and the list of R143. -/
def drdMemory : Memory :=
  words [(0xF0004100#32, 0xF0005000#32), (0xF0004104#32, 0xF0005004#32), (0xF0004108#32, 0xF0005008#32),
    (0xF000410C#32, 0xF000500C#32), (0xF0005000#32, 0x08600004#32), (0xF0005004#32, 0x40A00010#32),
    (0xF0005008#32, 0x00600123#32), (0xF000500C#32, 0x08000008#32)]

/-- The state of R143. -/
def drds : State :=
  { withArgs State.reset 0xF0004100#32 4#32 0#32 0#32 0#32 0#32 with mem := drdMemory }

/-- The interrupt words given, glue initialised, the handler of R203 in slot 3. -/
def glued (ipr imr : Word) : State :=
  { State.reset with
    glueInit := true, ipr := ipr, imr := imr
    ht := State.reset.ht.set 3 { fn := 0x00010000#32, param := 0xCAFE0003#32 } }

/-- The pass of R203 after its fire step. -/
def scanning : State :=
  { glued 0x00001008#32 0xFFFFEFF7#32 with dmxActive := true, dmxSnap := 0x00001008#32 }

/-- The fatal stop. -/
def stopped : State := { placed with fatal := true, fatalReason := 1#2 }

/-! ## Well-formedness: one ill-formed term for each check -/

theorem test_wf_refuses_task_control :
    (Instr.tstart 256 true 0 true).wellFormed = false ∧ (Instr.tstart 0 true 256 true).wellFormed = false ∧
    (Instr.tstop 256).wellFormed = false ∧ (Instr.tstat 256).wellFormed = false := by decide

theorem test_wf_refuses_ring_commands :
    (Instr.bdsetup 256 1#2 0#8).wellFormed = false ∧ (Instr.bdassign 256).wellFormed = false ∧
    (Instr.bdrelease 256).wellFormed = false ∧ (Instr.bdreset 256).wellFormed = false ∧
    (Instr.bdget 256 0).wellFormed = false ∧ (Instr.bdget 0 65536).wellFormed = false ∧
    (Instr.bdring 256).wellFormed = false ∧ (Instr.bdinuse 256).wellFormed = false := by decide

theorem test_wf_refuses_configurator :
    (Instr.tcfg 256 0).wellFormed = false ∧ (Instr.tcfg 0 32768).wellFormed = false ∧
    (Instr.tcfg 0 (-32769)).wellFormed = false ∧ (Instr.tseti 256 0#5 true).wellFormed = false ∧
    (Instr.szset 256 0#2 0#2).wellFormed = false := by decide

theorem test_wf_refuses_interrupt_commands :
    (Instr.tintclr 256).wellFormed = false ∧ (Instr.tintstat 256).wellFormed = false ∧
    (Instr.tintpend 256).wellFormed = false ∧ (Instr.girqen 256).wellFormed = false ∧
    (Instr.girqdis 256).wellFormed = false ∧ (Instr.ginstall 256).wellFormed = false := by decide

/-! ## Decoding: words written out from R62 and R65 (`OP << 24 | TID << 16 | IMM`) -/

theorem test_decode_task_control :
    decode 0x01000001#32 = .ok (.apiinit true) ∧ decode 0x01000000#32 = .ok (.apiinit false) ∧
    decode 0x10030503#32 = .ok (.tstart 3 true 5 true) ∧
    decode 0x1003C800#32 = .ok (.tstart 3 false 200 false) ∧
    decode 0x11030000#32 = .ok (.tstop 3) ∧ decode 0x12030000#32 = .ok (.tstat 3) := by decide

theorem test_decode_ring_commands :
    decode 0x20025A01#32 = .ok (.bdsetup 2 1#2 0x5A#8) ∧ decode 0x21010000#32 = .ok (.bdassign 1) ∧
    decode 0x22010000#32 = .ok (.bdrelease 1) ∧ decode 0x23010000#32 = .ok (.bdreset 1) ∧
    decode 0x24010003#32 = .ok (.bdget 1 3) ∧ decode 0x25100000#32 = .ok (.bdring 16) ∧
    decode 0x26010000#32 = .ok (.bdinuse 1) := by decide

theorem test_decode_configurator :
    decode 0x30FF8000#32 = .ok (.tcfg 255 (-32768)) ∧ decode 0x30027FFF#32 = .ok (.tcfg 2 32767) ∧
    decode 0x31041F00#32 = .ok (.tseti 4 31#5 false) ∧ decode 0x32000007#32 = .ok (.drdpatch 7#5) ∧
    decode 0x330F0008#32 = .ok (.szset 15 2#2 0#2) := by decide

theorem test_decode_interrupt_commands :
    decode 0x401F0000#32 = .ok (.tintclr 31) ∧ decode 0x41030000#32 = .ok (.tintstat 3) ∧
    decode 0x42030000#32 = .ok (.tintpend 3) ∧ decode 0x43000000#32 = .ok .tintsrc ∧
    decode 0x50000000#32 = .ok .ginit ∧ decode 0x511C0000#32 = .ok (.girqen 28) ∧
    decode 0x52030000#32 = .ok (.girqdis 3) ∧ decode 0x53200000#32 = .ok (.ginstall 32) ∧
    decode 0x54000000#32 = .ok .ghdone := by decide

/-- Section 2.1, the illegal and the reserved words. -/
theorem test_decode_refuses :
    decode 0x00000000#32 = .error (.illegalOpcode 0x00#8) ∧
    decode 0xFFFFFFFF#32 = .error (.illegalOpcode 0xFF#8) ∧
    decode 0x27000000#32 = .error (.illegalOpcode 0x27#8) ∧
    decode 0x11030001#32 = .error (.reservedBits .tstop) ∧
    decode 0x43010000#32 = .error (.reservedBits .tintsrc) ∧
    decode 0x10030504#32 = .error (.reservedBits .tstart) ∧
    decode 0x31042901#32 = .error (.reservedBits .tseti) ∧
    decode 0x33030016#32 = .error (.reservedBits .szset) ∧
    decode 0x20010006#32 = .error (.reservedBits .bdsetup) := by decide

theorem test_table_word :
    decodeTableWord 32 0x10030503 = some (.tstart 3 true 5 true) ∧ decodeTableWord 32 0 = none := by
  decide

/-! ## One step each -/

/-- Section 2.2, second row. -/
theorem test_apiinit_offset :
    (ran 0x01000001#32 (withArgs State.reset 0xF0000000#32 0x80000000#32 0#32 0#32 0#32 0#32)).map
      (fun s => (s.mbar, s.physOffset, s.apiInit, s.res)) =
      some (0xF0000000#32, 0x90000000#32, true, 0xFFFFFFFF#32) := by decide

/-- Section 2.2, third row. -/
theorem test_apiinit_again :
    (ran 0x01000000#32 placed).map (fun s => (s.mbar, s.res)) = some (0xF0000000#32, 0xFFFFFFFC#32) := by
  decide

/-- R84. -/
theorem test_tstart :
    (ran 0x10030503#32 (configuredWith 0x0003#16)).map (fun s => (s.tcr[3], s.imr, s.runFlag[3], s.res)) =
      some (0x8085#16, 0xFFFFFFF7#32, true, 0xFFFFFFFF#32) := by decide

/-- Section 2.2: `INIT` and `HOLD` are kept. -/
theorem test_tstart_keeps_fields :
    (ran 0x10030003#32 (configuredWith 0x1F25#16)).map (fun s => s.tcr[3]) = some 0x9FA0#16 := by decide

/-- Section 2.2. -/
theorem test_tstop :
    (ran 0x11030000#32 (configuredWith 0x8085#16)).map (fun s => (s.tcr[3], s.res)) =
      some (0x0085#16, 0xFFFFFFFF#32) := by decide

/-- P3, line 9: `EN` and the flag can differ. -/
theorem test_tstat :
    (ran 0x12030000#32 { configuredWith 0x0085#16 with runFlag := Vector.replicate 16 true }).map
      (fun s => (s.res, s.ret1)) = some (0#32, 1#32) := by decide

/-- R106. -/
theorem test_bdsetup_entry :
    (ran 0x20010002#32 ready).map (fun s => (s.rt[1], s.allocPtr, s.res)) =
      some (ringEntry, 0xF0008060#32, 0xFFFFFFFF#32) := by decide

/-- R106, the slots and the last live BD. -/
theorem test_bdsetup_slots :
    (ran 0x20010002#32 ready).map (fun s => (s.memRead 0xF0004010#32, s.memRead 0xF0004014#32,
      s.memRead 0xF0004018#32, s.memRead 0xF0008024#32)) =
      some (0xF0008000#32, 0xF0008024#32, 0xF0008000#32, 0#32) := by decide

/-- R110. -/
theorem test_bdassign :
    (ran 0x21010000#32 ring1).map (fun s => (s.memRead 0xF0008000#32, s.memRead 0xF0008008#32,
      s.rt[1].wr, s.rt[1].inUse, s.res)) = some (0x48000600#32, 0x00200000#32, 1#16, 1#16, 0#32) := by
  decide

/-- Section 2.3: full is tested before the size. -/
theorem test_bdassign_full :
    (ran 0x21010000#32 (withArgs full 0#32 0#32 0x04000000#32 0#32 0#32 0#32)).map (fun s => s.res) =
      some 0xFFFFFFFD#32 := by decide

/-- R114. -/
theorem test_bdrelease :
    (ran 0x22010000#32 finished).map (fun s => (s.rt[1].rd, s.rt[1].inUse, s.ret1, s.res)) =
      some (1#16, 0#16, 0x080005EA#32, 0#32) := by decide

/-- R114, the engine has not moved. -/
theorem test_bdrelease_busy :
    (ran 0x22010000#32 assigned).map (fun s => (s.rt[1].inUse, s.res)) = some (1#16, 0xFFFFFFF9#32) := by
  decide

/-- R117. -/
theorem test_bdreset :
    (ran 0x23010000#32 assigned).map (fun s => (s.rt[1], s.memRead 0xF0008000#32,
      s.memRead 0xF000802C#32, s.memRead 0xF0004018#32)) =
      some (ringEntry, 0#32, 0#32, 0xF0008000#32) := by decide

/-- R118. -/
theorem test_bdget :
    (ran 0x24010003#32 ring1).map (fun s => s.res) = some 0xF0008024#32 ∧
    (ran 0x24010004#32 ring1).map (fun s => s.res) = some 0#32 := by decide

/-- R119. -/
theorem test_bdring :
    (ran 0x25010000#32 ring1).map (fun s => s.res) = some 0xF0008000#32 ∧
    (ran 0x25100000#32 ring1).map (fun s => s.res) = some 0#32 := by decide

/-- R120. -/
theorem test_bdinuse : (ran 0x26010000#32 assigned).map (fun s => s.res) = some 1#32 := by decide

/-- R135: the other bits are kept; the advisory flag falls. -/
theorem test_tcfg :
    (ran 0x3002FFFF#32 (configuredWith 0x8F25#16)).map (fun s => (s.tcr[2], s.runFlag[2], s.res)) =
      some (0x8FA2#16, false, 2#32) := by decide

/-- R135, the enable slot. -/
theorem test_tcfg_slot :
    (ran 0x3001FFFD#32 (withArgs placed 0xF0004020#32 0#32 0#32 0#32 0#32 0#32)).map
      (fun s => s.memRead 0xF0004020#32) = some 0xF000121E#32 := by decide

/-- R137. -/
theorem test_tseti :
    (ran 0x31040901#32 (configuredWith 0x0084#16)).map (fun s => s.tcr[4]) = some 0x09A4#16 ∧
    (ran 0x31040000#32 (configuredWith 0xFFFF#16)).map (fun s => s.tcr[4]) = some 0xE0DF#16 := by decide

/-- R143. -/
theorem test_drdpatch :
    (ran 0x32000007#32 drds).map (fun s => (s.memRead 0xF0005000#32, s.memRead 0xF0005004#32,
      s.memRead 0xF0005008#32, s.memRead 0xF000500C#32, s.ret1)) =
      some (0x08E00004#32, 0x40E00010#32, 0x00600123#32, 0x08000008#32, 2#32) := by decide

/-- Section 2.4: a misaligned entry refuses before any write. -/
theorem test_drdpatch_misaligned :
    (ran 0x32000007#32 { drds with mem := drdMemory.writeWord 0xF0004108#32 0xF0005009#32 }).map
      (fun s => (s.memRead 0xF0005000#32, s.res)) = some (0x08600004#32, 0xFFFFFFFE#32) := by decide

/-- R145. -/
theorem test_szset :
    (ran 0x33030006#32 { State.reset with sz := State.reset.sz.set 1 0xA0#8 }).map (fun s => s.sz[1]) =
      some 0xA6#8 ∧
    (ran 0x33020001#32 { State.reset with sz := State.reset.sz.set 1 0xA6#8 }).map (fun s => s.sz[1]) =
      some 0x16#8 := by decide

/-- Section 2.5. -/
theorem test_tintclr :
    (ran 0x40030000#32 (glued 0x00001008#32 0#32)).map iprValue = some 0x00001000#32 ∧
    (ran 0x401C0000#32 (glued 0x19000008#32 0#32)).map iprValue = some 0x00000008#32 := by decide

/-- Section 2.5. -/
theorem test_tintstat :
    (ran 0x41030000#32 (glued 0x10000008#32 0xEFFFFFF7#32)).map (fun s => s.res) = some 28#32 ∧
    (ran 0x41030000#32 (glued 0x90000008#32 0x6FFFFFF7#32)).map (fun s => s.res) = some 31#32 := by decide

/-- R163. -/
theorem test_tintpend :
    (ran 0x42030000#32 (glued 0x00000008#32 0xFFFFFFFF#32)).map (fun s => s.res) = some 0xFFFFFFFF#32 ∧
    (ran 0x42030000#32 (glued 0x00000008#32 0xFFFFFFF7#32)).map (fun s => s.res) = some 3#32 := by decide

/-- R165. -/
theorem test_tintsrc :
    (ran 0x43000000#32 (glued 0x00001008#32 0xFFFFEFF7#32)).map (fun s => s.res) = some 12#32 ∧
    (ran 0x43000000#32 (glued 0x19001008#32 0xEFFFEFF7#32)).map (fun s => s.res) = some 9#32 := by decide

/-- Section 2.6: a second `GINIT` keeps the handler, a first wipes it. -/
theorem test_ginit :
    (ran 0x50000000#32 (glued 0#32 0#32)).map (fun s => s.ht[3].fn) = some 0x00010000#32 ∧
    (ran 0x50000000#32 { glued 0#32 0#32 with glueInit := false }).map (fun s => s.ht[3].fn) =
      some 0#32 := by decide

/-- Section 2.6. -/
theorem test_girqen :
    (ran 0x51030000#32 State.reset).map (fun s => s.imr) = some 0xFFFFFFF7#32 ∧
    (ran 0x511B0000#32 State.reset).map (fun s => (s.imr, s.res)) =
      some (0xFFFFFFFF#32, 0xFFFFFFFE#32) := by decide

/-- Section 2.6. -/
theorem test_girqdis :
    (ran 0x52030000#32 (glued 0x00000008#32 0xFFFFFFF7#32)).map (fun s => (s.imr, s.ipr, irq s)) =
      some (0xFFFFFFFF#32, 0x00000008#32, false) := by decide

/-- Section 2.6. -/
theorem test_ginstall :
    (ran 0x531F0000#32 (withArgs State.reset 0x00020000#32 7#32 0#32 0#32 0#32 0#32)).map
      (fun s => s.ht[31]) = some { fn := 0x00020000#32, param := 7#32 } ∧
    (ran 0x53200000#32 State.reset).map (fun s => s.res) = some 0xFFFFFFFE#32 := by decide

/-- Section 2.6. -/
theorem test_ghdone :
    (ran 0x54000000#32 { scanning with dmxWait := true }).map (fun s => (s.dmxWait, s.res)) =
      some (false, 0xFFFFFFFF#32) ∧
    (ran 0x54000000#32 scanning).map (fun s => s.res) = some 0xFFFFFFFE#32 := by decide

/-- Section 2.7, the engine's interrupt events. -/
theorem test_engine_interrupts :
    (made (.engine (.int 3)) State.reset).map iprValue = some 0x00000008#32 ∧
    (made (.engine (.tea 4)) (glued 0x19000000#32 0#32)).map iprValue = some 0x14000000#32 ∧
    (made (.engine .dbg) State.reset).map iprValue = some 0x80000000#32 := by decide

/-- Section 2.7, the auto-start chain and the self-disable. -/
theorem test_engine_tasks :
    (made (.engine (.done 0)) { configuredWith 0x0005#16 with
      tcr := (Vector.replicate 16 0x0005#16).set 0 0x8085#16 }).map (fun s => s.tcr[5]) =
      some 0x8005#16 ∧
    (made (.engine (.selfDis 2)) (configuredWith 0x8082#16)).map (fun s => s.tcr[2]) =
      some 0x0082#16 := by decide

/-- Section 2.7, the ring. -/
theorem test_engine_bddone :
    (made (.engine (.bdDone 1 0x080005EA#32)) assigned).map
      (fun s => (s.memRead 0xF0008000#32, s.engCur[1])) = some (0x080005EA#32, 1#16) := by decide

/-- R203, the fire step and the first scan step. -/
theorem test_demultiplexer :
    (made .demux (glued 0x00001008#32 0xFFFFEFF7#32)).map (fun s => (s.dmxSnap, s.dmxActive)) =
      some (0x00001008#32, true) ∧
    (made .demux scanning).map (fun s => (s.dispatchLog, s.dmxIdx, s.ipr)) =
      some ([{ id := 3#5, fn := 0x00010000#32, param := 0xCAFE0003#32 }], 4#6, 0x00001008#32) := by
  decide

/-- R199: the defensive clear keeps the sub-field (section 2.7). -/
theorem test_defensive_clear :
    (made .demux { scanning with ipr := 0x19000000#32, dmxSnap := 0x10000000#32 }).map
      (fun s => (iprValue s, s.dmxIdx)) = some (0x09000000#32, 29#6) := by decide

/-- Section 2.8. -/
theorem test_fatal :
    (ran 0x20020003#32 ready).map (fun s => (s.fatal, s.fatalReason, s.allocPtr, s.res)) =
      some (true, 1#2, 0xF0008000#32, 0#32) ∧
    (ran 0x20020001#32 (withArgs placed 0#32 0#32 0#32 0#32 4#32 2049#32)).map
      (fun s => (s.fatal, s.fatalReason)) = some (true, 2#2) := by decide

/-- R195, R210: a stopped block ignores commands until reset. -/
theorem test_fatal_ignores :
    (ran 0x26010000#32 stopped).map (fun s => s.res) = some 0#32 ∧
    (made .reset stopped).map (fun s => (s.fatal, s.apiInit)) = some (false, false) := by decide

/-- The decoder's instruction is what the next step runs. -/
theorem test_with_fetch_word :
    (match step (State.reset.withFetchWord 32 0x11100000) with
     | .next s => s.res
     | .fault _ => 0#32
     | .refused _ => 0#32) = 0xFFFFFFFE#32 := by decide

/-- R47, U9: a direct store to a register stops, `PRIO` too; R211: the host's own `PRIO` write. -/
theorem test_register_block :
    (∃ f, step { placed with inputs := [.storeByte 0xF000125B#32 1#8] } = .fault f) ∧
    (made (.prio 31 0x5A#8) placed).map (fun s => busByte s 0xF000125B#32) = some 0x5A#8 :=
  ⟨⟨_, rfl⟩, by decide⟩

/-- R149, R152 to R154, section 2.4 (host side). -/
theorem test_host_side :
    bytesPerElement 4 0 (-1) = -4 ∧ bytesPerElement 0 (-2) (-1) = -2 ∧
    storedInt (bytesPerElement (-2 ^ 31) 0 (-1)) = 0x80000000#32 ∧ misalignSign (-4) = -1 ∧
    numPointers .runtime .fifo = 1#2 ∧ numPointers .fifo .fifo = 0#2 := by decide

/-- The task of P5: `g` = 18, BD-based, runtime initiator 7, source Runtime, destination FIFO. -/
def p5Task : TaskDescriptor where
  globalNumber := 18
  enableSlot := 0xF0004020#32
  baseSlot := 0xF0004010#32
  lastSlot := 0xF0004014#32
  startSlot := 0xF0004018#32
  pragmaAddr := 0xF0004080#32
  flagDrdSlot := 0xF0004024#32
  extraIterSlot := 0xF0004028#32
  bpeSlot := 0xF000402C#32
  drdList := 0xF0004100#32
  drdAddrs := [0xF0005000#32, 0xF0005004#32, 0xF0005008#32, 0xF000500C#32]
  src := ⟨0xF0004040#32, 0xF0004044#32, 0xF0004048#32, 0xF000404C#32⟩
  dst := ⟨0xF0004050#32, 0xF0004054#32, 0xF0004058#32, 0xF000405C#32⟩

def p5Profile : TaskProfile where
  maxBD := 8
  bdFlags := false
  apiConfig := 0#8
  src := ⟨.runtime, false, 4, 0#32, 0⟩
  dst := ⟨.fifo, false, 1, 0xF0003A10#32, 0⟩
  fixedInit := none
  policy := -1
  misalign := false
  iterations := 1
  pragma := Vector.replicate 6 false
  bpeDefault := -4

def p5Params : SetupParams where
  numBD := 4#32
  sizeOrCount := 0x100#32
  status := 0#32
  init := 7#5
  hold := false
  src := ⟨4, 4, 0x00100000#32⟩
  dst := ⟨1, 0, 0#32⟩

/-- The state of P5 after its line 1. -/
def p5Start : State := { placed with mem := drdMemory }

/-- How a setup ended. -/
def setUp (d : TaskDescriptor) (p : TaskProfile) (q : SetupParams) (env : List (List Input)) (s : State) :
    Option (SetupEnd × State) :=
  match taskSetup d p q env s with
  | .next r => some r
  | .fault _ => none
  | .refused _ => none

/-- P5, lines 2 to 10: the registers, the enable slot, the ring's address handed back, `bpe` = -4. -/
theorem test_task_setup :
    (setUp p5Task p5Profile p5Params [] p5Start).map (fun r => (r.1, r.2.tcr[2], r.2.sz[1], r.2.res)) =
      some (.done 2 { p5Params with src := ⟨4, 4, 0xF0008000#32⟩ }, 0x0782#16, 0x10#8, 0xF0008000#32) ∧
    (setUp p5Task p5Profile p5Params [] p5Start).map (fun r =>
      (r.2.memRead 0xF0004020#32, r.2.memRead 0xF0005000#32, r.2.memRead 0xF000402C#32)) =
      some (0xF0001220#32, 0x08E00004#32, 0xFFFFFFFC#32) := by decide

/-- R134: a task that is not BD-based has no enable slot written; C9: two FIFO sides end in the fatal
stop; an event of the engine between two moves. -/
theorem test_task_setup_ends :
    (setUp p5Task { p5Profile with maxBD := 0 } p5Params [] p5Start).map
      (fun r => (r.2.mem.lookup 0xF0004020, r.2.tcr[2], r.2.rt[2].base)) = some (none, 0x0782#16, 0#32) ∧
    (setUp p5Task { p5Profile with src := p5Profile.dst } p5Params [[], [.engine (.int 3)]] p5Start).map
      (fun r => (r.1, r.2.fatalReason, r.2.ipr)) = some (.panicked, 1#2, 0x00000008#32) := by decide

/-- R52, R222: the DRD list in a ring, a slot in the storage a first `BDSETUP` takes, two slots at one
address, a buffer in the ring region; the operands of S1 are clean. -/
theorem test_aliased_addresses :
    commandHazards (.drdpatch 7#5) (withArgs ring1 0xF0008000#32 1#32 0#32 0#32 0#32 0#32) =
      [.aliasedAddress] ∧
    commandHazards (.bdsetup 1 2#2 0#8) (withArgs placed 0xF000805C#32 0#32 4#32 0#32 4#32 8#32) =
      [.aliasedAddress] ∧
    commandHazards (.bdsetup 1 2#2 0#8) (withArgs placed 0#32 0#32 4#32 0#32 4#32 8#32) =
      [.aliasedAddress] ∧
    commandHazards (.bdassign 1) (withArgs ring1 0xF0008000#32 0#32 4#32 0#32 0#32 0#32) =
      [.aliasedAddress] ∧
    commandHazards (.bdsetup 1 2#2 0#8) ready = [] := by decide

/-! ## Witnesses: the hypotheses of each statement, met together

One theorem per statement with hypotheses, named after it; its conjuncts follow the statement's clauses,
at the ends of the operand ranges where a clause has one. -/

/-- Two rings: task 1 with one BD the engine has finished, task 15 with a full one-pointer ring. -/
def rings : State :=
  { withArgs placed 0xF0004010#32 0xF0004014#32 0xF0004018#32 0#32 4#32 8#32 with
    rt := (State.reset.rt.set 1 { ringEntry with inUse := 1#16, wr := 1#16 }).set 15
      { base := 0xF0008060#32, numBD := 2#16, capBD := 2#16, numPtr := 1#2, apiConfig := 0x5A#8,
        startReg := 0xF0004038#32, inUse := 2#16, wr := 0#16, rd := 0#16 }
    allocPtr := 0xF0008070#32
    mem := words [(0xF0008000#32, 0x080005EA#32), (0xF0008060#32, 0x40000040#32),
      (0xF0008068#32, 0x40000040#32)] }

theorem ringInv_of {s : State} (h : RingInv s) (i : List Input) (a : Vector Word 6) (m : Memory) :
    RingInv { s with inputs := i, args := a, mem := m } :=
  ⟨h.config, h.alloc_ge, h.alloc_le, h.alloc_aligned, h.entries, h.disjoint, h.engine_cursor⟩

theorem ringInv_rings : RingInv rings where
  config := by decide
  alloc_ge := by decide
  alloc_le := by decide
  alloc_aligned := by decide
  entries := fun t =>
    { inUse_le := by revert t; decide
      unset_empty := by revert t; decide
      numPtr_legal := by revert t; decide
      cap_pos := by revert t; decide
      live_le_cap := by revert t; decide
      base_ge := by revert t; decide
      base_aligned := by revert t; decide
      start_aligned := by revert t; decide
      end_le := by revert t; decide
      cursors_live := by revert t; decide
      cursors_empty := by revert t; decide }
  disjoint := by decide
  engine_cursor := by decide

theorem ringInv_ready : RingInv ready where
  config := by decide
  alloc_ge := by decide
  alloc_le := by decide
  alloc_aligned := by decide
  entries := fun t =>
    { inUse_le := by revert t; decide
      unset_empty := by revert t; decide
      numPtr_legal := by revert t; decide
      cap_pos := by revert t; decide
      live_le_cap := by revert t; decide
      base_ge := by revert t; decide
      base_aligned := by revert t; decide
      start_aligned := by revert t; decide
      end_le := by revert t; decide
      cursors_live := by revert t; decide
      cursors_empty := by revert t; decide }
  disjoint := by decide
  engine_cursor := by decide

/-- A word is one of `a`'s four bytes only if it lies within them. -/
theorem not_inBytes {a x : Word} (h : x.toNat < a.toNat ∨ a.toNat + 4 ≤ x.toNat) (ha : a.toNat < 2 ^ 31 * 2 - 4) :
    ¬inBytes a 4 x := by
  unfold inBytes
  bv_omega

theorem witness_EncodedCommandDecodesToItself :
    (Instr.tcfg 255 (-32768)).wellFormed = true ∧ (Instr.tcfg 0 32767).wellFormed = true ∧
    (Instr.bdget 255 65535).wellFormed = true ∧ (Instr.tstart 255 false 255 true).wellFormed = true := by
  decide

theorem witness_DecodedWordIsItsEncoding : decode 0x24FFFFFF#32 = .ok (.bdget 255 65535) := by decide

theorem witness_OpcodeMapIsThePrintedTable :
    ⟨.tseti, 0x31#8, .i, 0x31000000#32, 0xFF00E0FE#32⟩ ∈ printedOpcodeMap ∧
    0x31FF1F01#32 &&& 0xFF00E0FE#32 = 0x31000000#32 := by decide

theorem witness_OperandsAreTheFieldsOfTheWord : decode 0x30FF8000#32 = .ok (.tcfg 255 (-32768)) := by
  decide

theorem witness_IllegalWordOnlyWritesInvalidArg :
    ({ State.reset with inputs := [.cmd 0x11030001#32] } : State).inputs = [.cmd 0x11030001#32] ∧
    State.reset.fatal = false ∧ ∀ r ∈ printedOpcodeMap, 0x11030001#32 &&& r.mask ≠ r.pattern := by decide

theorem witness_StepRunsTheDecodedCommand :
    ({ State.reset with inputs := [.cmd 0x11030000#32] } : State).inputs = [.cmd 0x11030000#32] ∧
    State.reset.fatal = false ∧ decode 0x11030000#32 = .ok (.tstop 3) := by decide

theorem witness_StepWritesArgumentsAndIdles :
    ({ State.reset with inputs := [.arg 5 1#32] } : State).inputs = [.arg 5 1#32] ∧
    State.reset.inputs = [] := by decide

theorem witness_EveryCommandCompletes :
    step { placed with inputs := [.storeByte 0xF0001214#32 1#8] } = .fault (.registerBlockWrite 0xF0001214#32) ∧
    step { placed with inputs := [.storeByte 0xF000125B#32 1#8] } = .fault (.registerBlockWrite 0xF000125B#32) ∧
    step { placed with inputs := [.storeWord 0xF000125D#32 1#32] } = .fault (.registerBlockWrite 0xF0001260#32) ∧
    step { placed with inputs := [.storeWord 0xF0001267#32 1#32] } = .fault (.registerBlockWrite 0xF0001267#32) :=
  ⟨rfl, rfl, rfl, rfl⟩

theorem witness_FatalStopsCommandsUntilReset :
    stopped.fatal = true ∧
    ({ stopped with inputs := [.cmd 0x12000000#32] } : State).inputs = [.cmd 0x12000000#32] ∧
    (made .reset stopped).map (fun s => s.fatal) = some false := by decide

/-- Both causes, at `numPtr` 0 and 3 and at the first size that does not fit; and no fatal stop at the
last size that fits. -/
theorem witness_FatalHasTwoCauses :
    ready.fatal = false ∧
    (ran 0x20020003#32 ready).map (fun s => s.fatal) = some true ∧
    (ran 0x20020000#32 ready).map (fun s => s.fatal) = some true ∧
    (ran 0x20020001#32 (withArgs placed 0#32 0#32 0#32 0#32 0#32 2049#32)).map (fun s => s.fatal) =
      some true ∧
    (ran 0x20020001#32 (withArgs placed 0#32 0#32 0#32 0#32 0#32 2048#32)).map (fun s => s.fatal) =
      some false := by decide

theorem witness_ResetGivesTheTable :
    ({ stopped with inputs := [.reset] } : State).inputs = [.reset] := by decide

theorem witness_ResetStateHasTheInvariants :
    Config.vectors.wf ∧ ({ Config.vectors with ringMemBase := 4#32, ringMemSize := 0xFFFFFFFB#32 } : Config).wf := by
  decide

theorem witness_StepKeepsTheRingTable :
    RingInv { rings with inputs := [.cmd 0x22010000#32] } ∧
    ∃ s', step { rings with inputs := [.cmd 0x22010000#32] } = .next s' :=
  ⟨ringInv_of ringInv_rings _ rings.args rings.mem, _, rfl⟩

/-- A dispatched handler of the last source. -/
def waiting : State :=
  { glued 0x80000000#32 0x7FFFFFFF#32 with
    dmxActive := true, dmxWait := true, dmxSnap := 0x80000000#32, dmxIdx := 32#6, dspId := 31#5
    dspFn := 1#32 }

theorem witness_StepKeepsTheInterruptState :
    InterruptInv { waiting with inputs := [.demux] } ∧ ∃ s', step { waiting with inputs := [.demux] } = .next s' :=
  ⟨⟨by decide, by decide, by decide, by decide, by decide, by decide, by decide, by decide⟩, _, rfl⟩

theorem witness_StepKeepsRegistersAndMemoryForm :
    RegisterInv { stopped with tcr := Vector.replicate 16 0x9FAF#16, inputs := [.reset] } ∧
    Memory.wf rings.mem = true ∧
    ∃ s', step { stopped with tcr := Vector.replicate 16 0x9FAF#16, inputs := [.reset] } = .next s' :=
  ⟨⟨by decide, by decide⟩, by decide, _, rfl⟩

/-- Every transition of R96 is taken: configure, start, chain, stop, self-disable. -/
theorem witness_TaskStatesFollowTheTable :
    taskState State.reset 15 = .unconfigured ∧
    (ran 0x30FF8000#32 State.reset).map (fun s => taskState s 15) = some .stopped ∧
    (ran 0x100F0000#32 (configuredWith 0#16)).map (fun s => taskState s 15) = some .running ∧
    (ran 0x110F0000#32 (configuredWith 0x8000#16)).map (fun s => taskState s 15) = some .stopped ∧
    (made (.engine (.done 0)) { State.reset with tcr := State.reset.tcr.set 0 0x808F#16 }).map
      (fun s => taskState s 15) = some .running ∧
    (made (.engine (.selfDis 15)) { State.reset with tcr := Vector.replicate 16 0x8000#16 }).map
      (fun s => taskState s 15) = some .unconfigured := by decide

theorem witness_ApiinitRecordsTheBasesOnce :
    State.reset.fatal = false ∧ State.reset.apiInit = false ∧ placed.fatal = false ∧
    placed.apiInit = true := by decide

theorem witness_TstartStartsAConfiguredTask :
    (configuredWith 0#16).fatal = false ∧ (configuredWith 0#16).configured[(15 : TaskId)] = true ∧
    (true = true → 15 < 16) ∧ 16 ≤ 16 ∧ (true = true ∧ 16 ≤ 16) ∧
    State.reset.configured[(0 : TaskId)] = false ∧
    ({ configuredWith 0#16 with cfg := { Config.vectors with startAlwaysWritesAs := true } } :
      State).configured[(15 : TaskId)] = true := by decide

theorem witness_TstopClearsTheEnableBit : (configuredWith 0x8000#16).fatal = false ∧ 16 ≤ 16 := by decide

theorem witness_TstatReportsEnableAndFlag : (configuredWith 0x8000#16).fatal = false ∧ 16 ≤ 16 := by decide

/-- Each line refuses at its first bad value. -/
theorem witness_BdsetupRefusesBadOperands :
    ready.fatal = false ∧ 16 ≤ 16 ∧
    ¬(argReg (withArgs placed 0xF0004011#32 0#32 0#32 0#32 4#32 8#32) 0).toNat % 4 = 0 ∧
    ¬(argReg (withArgs placed 0#32 0#32 0#32 0#32 0x10000#32 0x10000#32) 4).toNat ≤ 0xFFFF ∧
    ¬(argReg (withArgs placed 0#32 0#32 0#32 0#32 5#32 4#32) 4).toNat ≤ 4 ∧
    (ready.rt[(2 : TaskId)].base = 0#32 ∧
      argReg (withArgs placed 0#32 0#32 0#32 0#32 0#32 0#32) 5 = 0#32) ∧
    (rings.rt[(1 : TaskId)].base ≠ 0#32 ∧ 1#2 ≠ rings.rt[(1 : TaskId)].numPtr) ∧
    rings.rt[(1 : TaskId)].capBD.toNat < 9 := by decide

/-- The largest ring that fits: 2048 one-pointer BDs fill the region. -/
theorem witness_BdsetupFirstCallAllocates :
    (withArgs placed 0xF0004010#32 0xF0004014#32 0xF0004018#32 0#32 2048#32 2048#32).fatal = false ∧
    SetupOperandsOk (withArgs placed 0xF0004010#32 0xF0004014#32 0xF0004018#32 0#32 2048#32 2048#32) ∧
    placed.rt[(15 : TaskId)].base = 0#32 ∧ (2048#32 : Word) ≠ 0#32 ∧
    RingFits (withArgs placed 0xF0004010#32 0xF0004014#32 0xF0004018#32 0#32 2048#32 2048#32) 1#2 := by
  unfold SetupOperandsOk RingFits
  decide

/-- A later call up to the recorded capacity. -/
theorem witness_BdsetupLaterCallReusesTheRing :
    rings.fatal = false ∧ SetupOperandsOk (withArgs rings 0#32 0#32 0#32 0#32 8#32 8#32) ∧
    rings.rt[(1 : TaskId)].base ≠ 0#32 ∧ 2#2 = rings.rt[(1 : TaskId)].numPtr ∧
    (argReg (withArgs rings 0#32 0#32 0#32 0#32 8#32 8#32) 4).toNat ≤ rings.rt[(1 : TaskId)].capBD.toNat := by
  unfold SetupOperandsOk
  decide

/-- The first call of example S1; the slots lie outside the ring. -/
theorem witness_BdsetupInitialisesTheRing :
    RingInv ready ∧ ready.fatal = false ∧ ready.rt[(1 : TaskId)].base = 0#32 ∧
    (ran 0x20010002#32 ready).map (fun s => (s.fatal, s.res, s.rt[1].startReg, s.rt[1].base)) =
      some (false, 0xFFFFFFFF#32, 0xF0004018#32, 0xF0008000#32) ∧
    argReg ready 1 ≠ 0xF0004018#32 ∧ argReg ready 0 ≠ argReg ready 1 ∧ argReg ready 0 ≠ argReg ready 2 ∧
    ∀ x, inStorage ringEntry x →
      ¬inBytes (argReg ready 0) 4 x ∧ ¬inBytes (argReg ready 1) 4 x ∧ ¬inBytes (argReg ready 2) 4 x := by
  refine ⟨ringInv_ready, by decide, by decide, by decide, by decide, by decide, by decide, ?_⟩
  intro x hx
  have hb : 0xF0008000 ≤ x.toNat := hx.2.1
  refine ⟨not_inBytes (.inr ?_) (by decide), not_inBytes (.inr ?_) (by decide),
    not_inBytes (.inr ?_) (by decide)⟩
  · have : (argReg ready 0).toNat = 0xF0004010 := by decide
    omega
  · have : (argReg ready 1).toNat = 0xF0004014 := by decide
    omega
  · have : (argReg ready 2).toNat = 0xF0004018 := by decide
    omega

/-- Both kinds of move: a `BDSETUP` that allocates, and a reset. -/
theorem witness_RingStorageIsAllocatedOnce :
    RingInv { ready with inputs := [.cmd 0x20010002#32] } ∧
    (∃ s', step { ready with inputs := [.cmd 0x20010002#32] } = .next s') ∧
    (ran 0x20010002#32 ready).map (fun s => decide (s.allocPtr ≠ ready.allocPtr)) = some true ∧
    RingInv { rings with inputs := [.reset] } ∧ ∃ s', step { rings with inputs := [.reset] } = .next s' :=
  ⟨ringInv_of ringInv_ready _ ready.args ready.mem, ⟨_, rfl⟩, by decide,
    ringInv_of ringInv_rings _ rings.args rings.mem, _, rfl⟩

/-- The last size that fits and the first that does not. -/
theorem witness_BdassignFillsTheNextBd :
    ring1.fatal = false ∧ 16 ≤ 16 ∧ full.rt[(1 : TaskId)].inUse = full.rt[(1 : TaskId)].numBD ∧
    ring1.rt[(1 : TaskId)].inUse ≠ ring1.rt[(1 : TaskId)].numBD ∧
    (argReg (withArgs ring1 0#32 0#32 0x03FFFFFF#32 0#32 0#32 0#32) 2).toNat ≤ 0x03FFFFFF ∧
    0x03FFFFFF < (argReg (withArgs ring1 0#32 0#32 0x04000000#32 0#32 0#32 0#32) 2).toNat := by decide

theorem witness_BdreleaseReturnsTheOldestBd :
    ring1.fatal = false ∧ 16 ≤ 16 ∧ ring1.rt[(1 : TaskId)].inUse = 0#16 ∧
    (assigned.rt[(1 : TaskId)].inUse ≠ 0#16 ∧ (assigned.memRead 0xF0008000#32).getLsbD 30 = true) ∧
    (finished.rt[(1 : TaskId)].inUse ≠ 0#16 ∧ (finished.memRead 0xF0008000#32).getLsbD 30 = false) ∧
    bdAddr assigned.rt[(1 : TaskId)] 0 = 0xF0008000#32 := by decide

theorem witness_BdresetEmptiesTheRing :
    assigned.fatal = false ∧ 16 ≤ 16 ∧ assigned.rt[(0 : TaskId)].base = 0#32 ∧
    assigned.rt[(1 : TaskId)].base ≠ 0#32 ∧ assigned.rt[(1 : TaskId)].numPtr = 2#2 ∧
    0xF0008000 + 4 * 12 ≤ 2 ^ 32 ∧
    ∀ x, inBytes 0xF0008000#32 (4 * 12) x → ¬inBytes 0xF0004018#32 4 x := by
  refine ⟨by decide, by decide, by decide, by decide, by decide, by decide, ?_⟩
  intro x h
  unfold inBytes at h ⊢
  bv_omega

theorem witness_RingAccessorsOnlyWriteRes : rings.fatal = false ∧ 16 ≤ 16 := by decide

/-- An assign, a release, a setup, a reset and another command. -/
theorem witness_RingIsAFifoQueue :
    RingInv rings ∧ rings.fatal = false ∧ ringQueue rings.rt[1] = [0] ∧ ringQueue rings.rt[15] = [0, 1] ∧
    (∃ s', exec (.bdassign 1) rings = .next s') ∧ (∃ s', exec (.bdrelease 1) rings = .next s') ∧
    (∃ s', exec (.bdsetup 1 2#2 0#8) rings = .next s') ∧ (∃ s', exec (.bdreset 15) rings = .next s') ∧
    ∃ s', exec .tintsrc rings = .next s' :=
  ⟨ringInv_rings, by decide, by decide, by decide, ⟨_, rfl⟩, ⟨_, rfl⟩, ⟨_, rfl⟩, ⟨_, rfl⟩, _, rfl⟩

/-- How a drain ended. -/
def drained (t : Nat) (env : List (List Input)) (s : State) : Option (List Word × Word × Word) :=
  match bdDrain t env s with
  | .next r => some (r.1, r.2.res, r.2.cmd)
  | .fault _ => none
  | .refused _ => none

/-- Two polls drain the one assigned BD; one poll finds the other ring busy; when the engine
finishes its first BD before the first poll, that one is drained. -/
theorem witness_BddrainReleasesInOrder :
    RingInv rings ∧ rings.fatal = false ∧ rings.rt[(1 : TaskId)].inUse.toNat < [[], []].length (α := List Input) ∧
    drained 1 [[], []] rings = some ([0#32], 0xFFFFFFFA#32, 0x22010000#32) ∧
    drained 15 [[], [], []] rings = some ([], 0xFFFFFFF9#32, 0x220F0000#32) ∧
    rings.rt[(15 : TaskId)].inUse.toNat < [[], [], []].length (α := List Input) ∧
    drained 15 [[.engine (.bdDone 15 0#32), .demux], [], []] rings =
      some ([0#32], 0xFFFFFFF9#32, 0x220F0000#32) :=
  ⟨ringInv_rings, by decide, by decide, by decide, by decide, by decide, by decide⟩

theorem witness_RingsAreIndependent :
    RingInv rings ∧ (15 : TaskId) ≠ 1 ∧ (∃ s', exec (.bdassign 1) rings = .next s') ∧
    (∃ s', exec (.bdrelease 1) rings = .next s') ∧
    (engineMove (.bdDone 15 0#32) rings).isSome = true ∧ inStorage rings.rt[(15 : TaskId)] 0xF000806F#32 := by
  refine ⟨ringInv_rings, by decide, ⟨_, rfl⟩, ⟨_, rfl⟩, by decide, ?_⟩
  unfold inStorage
  decide

/-- The slot refused, absent and present. -/
theorem witness_TcfgConfiguresTheTask :
    State.reset.fatal = false ∧
    (argReg (withArgs placed 0xF0004022#32 0#32 0#32 0#32 0#32 0#32) 0).toNat % 4 ≠ 0 ∧
    (argReg State.reset 0).toNat % 4 = 0 ∧ argReg State.reset 0 = 0#32 ∧ argReg ready 0 ≠ 0#32 ∧
    (argReg ready 0).toNat % 4 = 0 ∧ ((15 : TaskId) : Nat) = 255 % 16 := by decide

theorem witness_TsetiWritesInitiatorAndHold : State.reset.fatal = false ∧ 16 ≤ 16 := by decide

theorem witness_SzsetWritesOneNibble :
    State.reset.fatal = false ∧ ((7 : Fin 8) : Nat) = ((15 : TaskId) : Nat) / 2 ∧ 16 ≤ 16 := by decide

/-- Each refusal at its first bad value, and the list of R143. -/
theorem witness_DrdpatchChecksThenPatches :
    drds.fatal = false ∧
    (argReg (withArgs drds 0xF0004102#32 4#32 0#32 0#32 0#32 0#32) 0).toNat % 4 ≠ 0 ∧
    0xFFFF < (argReg (withArgs drds 0xF0004100#32 0x10000#32 0#32 0#32 0#32 0#32) 1).toNat ∧
    (drdEntry { drds with mem := drdMemory.writeWord 0xF0004108#32 0xF0005009#32 } 2).toNat % 4 ≠ 0 ∧
    (argReg drds 0).toNat % 4 = 0 ∧ (argReg drds 1).toNat ≤ 0xFFFF ∧
    ∀ i < (argReg drds 1).toNat, (drdEntry drds i).toNat % 4 = 0 := by decide

/-- The continuation marks of R143's list: only entry 2. -/
def continuations : Nat → Bool
  | 0 => false
  | i + 1 => !continuations i && (drds.memRead (drdEntry drds i)).getLsbD 30

theorem witness_DrdpatchPatchesExactlyTheInitiators :
    drds.fatal = false ∧ (argReg drds 0).toNat % 4 = 0 ∧ (argReg drds 1).toNat ≤ 0xFFFF ∧
    (∀ i < (argReg drds 1).toNat, (drdEntry drds i).toNat % 4 = 0) ∧
    (∀ i < (argReg drds 1).toNat, ∀ j < i, drdEntry drds i ≠ drdEntry drds j) ∧
    continuations 0 = false ∧
    (∀ i, continuations (i + 1) = (!continuations i && (drds.memRead (drdEntry drds i)).getLsbD 30)) ∧
    continuations 2 = true :=
  ⟨by decide, by decide, by decide, by decide, by decide, rfl, fun _ => rfl, by decide⟩

theorem witness_source_numbers :
    SourceNumber 0 ∧ SourceNumber 15 ∧ SourceNumber 28 ∧ SourceNumber 31 ∧ ¬SourceNumber 16 ∧
    ¬SourceNumber 27 ∧ ¬SourceNumber 29 ∧ ¬SourceNumber 30 ∧ ¬SourceNumber 32 := by
  unfold SourceNumber
  decide

theorem witness_TintclrClearsOneSource :
    (glued 0x9F00FFFF#32 0#32).fatal = false ∧ SourceNumber 28 ∧ ¬SourceNumber 27 :=
  ⟨by decide, witness_source_numbers.2.2.1, witness_source_numbers.2.2.2.2.2.1⟩

theorem witness_TintstatAndTintpendAnswer :
    (glued 0x90000008#32 0x6FFFFFF7#32).fatal = false ∧ 16 ≤ 16 := by decide

/-- TEA, a task, none. -/
theorem witness_TintsrcReportsTheHighestTask :
    State.reset.fatal = false ∧
    (effectivePending (glued 0x19001008#32 0xEFFFEFF7#32)).getLsbD 28 = true ∧
    ((effectivePending (glued 0x0000FFFF#32 0xFFFF0000#32)).getLsbD 28 = false ∧
      (effectivePending (glued 0x0000FFFF#32 0xFFFF0000#32)).getLsbD 15 = true) ∧
    ∀ u < 16, (effectivePending State.reset).getLsbD u = false := by decide

theorem witness_GirqenAndGirqdisToggleOneMaskBit :
    State.reset.fatal = false ∧ SourceNumber 31 ∧ ¬SourceNumber 16 :=
  ⟨by decide, witness_source_numbers.2.2.2.1, witness_source_numbers.2.2.2.2.1⟩

theorem witness_GinitClearsTheHandlersOnce :
    State.reset.fatal = false ∧ State.reset.glueInit = false ∧ (glued 0#32 0#32).fatal = false ∧
    (glued 0#32 0#32).glueInit = true := by decide

theorem witness_GinstallWritesOneHandler :
    State.reset.fatal = false ∧ ((31 : Fin 32) : Nat) = 31 ∧ 32 ≤ 32 := by decide

theorem witness_GhdoneAcknowledgesTheHandler :
    waiting.fatal = false ∧ waiting.dmxWait = true ∧ scanning.fatal = false ∧ scanning.dmxWait = false := by
  decide

/-- A cause and none. -/
theorem witness_InvalidArgHasTheListedCauses :
    ring1.fatal = false ∧ (∀ t : TaskId, ring1.rt[t].base.toNat % 4 = 0) ∧
    (ran 0x21100000#32 ring1).map (fun s => (s.fatal, s.res)) = some (false, 0xFFFFFFFE#32) ∧
    (ran 0x210F0000#32 ring1).map (fun s => (s.fatal, s.res)) = some (false, 0xFFFFFFFD#32) := by decide

/-- An error of each kind, and an assign and a release with two causes. -/
theorem witness_ErrorResultChangesOnlyRes :
    (∃ s', exec (.tstop 16) ring1 = .next s' ∧ ring1.fatal = false ∧ s'.fatal = false ∧ s'.res.toInt ≤ -2) ∧
    (full.rt[(1 : TaskId)].inUse = full.rt[(1 : TaskId)].numBD ∧
      0x03FFFFFF < (argReg (withArgs full 0#32 0#32 0x04000000#32 0#32 0#32 0#32) 2).toNat) ∧
    (({ assigned with rt := ring1.rt } : State).rt[(1 : TaskId)].inUse = 0#16 ∧
      (({ assigned with rt := ring1.rt } : State).memRead 0xF0008000#32).getLsbD 30 = true) ∧
    instrOp (.tstop 16) ≠ .bdget :=
  ⟨⟨_, rfl, by decide, by decide, by decide⟩, by decide, by decide, by decide⟩

theorem witness_CommandsReadOnlyTheListedArguments :
    (∃ s', exec (.tstop 15) ring1 = .next s') ∧ (5 : Fin 6) ∉ listedArgs (.tstop 15) ∧
    (∃ s', exec (.bdassign 15) rings = .next s') ∧ rings.rt[(15 : TaskId)].numPtr ≠ 2#2 :=
  ⟨⟨_, rfl⟩, by decide, ⟨_, rfl⟩, by decide⟩

theorem witness_CommandsWriteOnlyTheirColumns :
    (∃ s', exec (.szset 15 3#2 3#2) ring1 = .next s' ∧ s'.sz ≠ ring1.sz) ∧
    ∃ s', exec (.bdassign 1) ring1 = .next s' ∧ s'.mem ≠ ring1.mem :=
  ⟨⟨_, rfl, by decide⟩, _, rfl, by decide⟩

/-- All three clearers, at the last source. -/
theorem witness_PendingBitsHaveTwoClearers :
    SourceNumber 31 ∧
    ((iprValue (glued 0x80000000#32 0#32)).getLsbD 31 = true ∧
      (ran 0x401F0000#32 (glued 0x80000000#32 0#32)).map (fun s => (iprValue s).getLsbD 31) = some false) ∧
    (made .demux { scanning with ipr := 0x80000000#32, dmxSnap := 0x80000000#32 }).map
      (fun s => (iprValue s).getLsbD 31) = some false ∧
    (made .reset (glued 0x80000000#32 0#32)).map (fun s => (iprValue s).getLsbD 31) = some false :=
  ⟨witness_source_numbers.2.2.2.1, by decide, by decide, by decide⟩

theorem witness_EngineEventsSetPendingBits :
    ({ State.reset with inputs := [.engine (.int 15)] } : State).inputs = [.engine (.int 15)] ∧
    ({ State.reset with inputs := [.engine (.tea 15)] } : State).inputs = [.engine (.tea 15)] ∧
    ({ State.reset with inputs := [.engine .dbg] } : State).inputs = [.engine .dbg] := by decide

theorem witness_EngineCompletionAndSelfDisable :
    ((configuredWith 0x808F#16).tcr[(0 : TaskId)].getLsbD 15 = true ∧
      (configuredWith 0x808F#16).tcr[(0 : TaskId)].getLsbD 7 = true ∧
      ((15 : TaskId) : Nat) = (configuredWith 0x808F#16).tcr[(0 : TaskId)].toNat % 16) ∧
    ((configuredWith 0x800F#16).tcr[(0 : TaskId)].getLsbD 15 = true ∧
      (configuredWith 0x800F#16).tcr[(0 : TaskId)].getLsbD 7 = false) ∧
    ({ State.reset with inputs := [.engine (.done 0)] } : State).inputs = [.engine (.done 0)] ∧
    ({ State.reset with inputs := [.engine (.selfDis 0)] } : State).inputs = [.engine (.selfDis 0)] := by
  decide

theorem witness_EngineFinishesTheBdAtItsCursor :
    ({ rings with inputs := [.engine (.bdDone 15 0xBFFFFFFF#32)] } : State).inputs =
      [.engine (.bdDone 15 0xBFFFFFFF#32)] ∧
    (0xBFFFFFFF#32 : Word).getLsbD 30 = false ∧ rings.rt[(15 : TaskId)].base ≠ 0#32 ∧
    rings.rt[(15 : TaskId)].numBD ≠ 0#16 ∧
    (rings.memRead (bdAddr rings.rt[(15 : TaskId)] rings.engCur[(15 : TaskId)].toNat)).getLsbD 30 = true := by
  decide

/-- A move of each kind; a completion without `EN`; the four ways `E_BDDONE` is disabled. -/
theorem witness_EngineMovesAreConfined :
    (engineMove (.tea 15) (glued 0x19000000#32 0#32)).isSome = true ∧
    (engineMove (.bdDone 15 0#32) rings).isSome = true ∧
    State.reset.tcr[(15 : TaskId)].getLsbD 15 = false ∧
    ({ State.reset with inputs := [.engine (.done 15)] } : State).inputs = [.engine (.done 15)] ∧
    State.reset.rt[(15 : TaskId)].base = 0#32 ∧ State.reset.rt[(15 : TaskId)].numBD = 0#16 ∧
    (0x40000000#32 : Word).getLsbD 30 = true ∧
    (rings.memRead (bdAddr rings.rt[(1 : TaskId)] rings.engCur[(1 : TaskId)].toNat)).getLsbD 30 = false := by
  decide

theorem witness_DemultiplexerFiresOnIrq :
    (glued 0x80000000#32 0x7FFFFFFF#32).dmxActive = false ∧
    (glued 0x80000000#32 0x7FFFFFFF#32).glueInit = true ∧
    (iprValue (glued 0x80000000#32 0x7FFFFFFF#32) &&& ~~~imrValue (glued 0x80000000#32 0x7FFFFFFF#32)) ≠
      0#32 ∧
    ({ glued 0x80000000#32 0x7FFFFFFF#32 with inputs := [.demux] } : State).inputs = [.demux] := by decide

/-- A source with a handler, one without, and none left. -/
theorem witness_DemultiplexerServesTheNextSource :
    scanning.dmxActive = true ∧ scanning.dmxWait = false ∧
    (scanning.dmxIdx.toNat ≤ 3 ∧ scanning.dmxSnap.getLsbD 3 = true ∧
      (∀ j, scanning.dmxIdx.toNat ≤ j → j < 3 → scanning.dmxSnap.getLsbD j = false) ∧
      scanning.ht[(3 : Fin 32)].fn ≠ 0#32) ∧
    (({ scanning with dmxIdx := 4#6 } : State).dmxSnap.getLsbD 12 = true ∧
      scanning.ht[(12 : Fin 32)].fn = 0#32) ∧
    ∀ j, ({ scanning with dmxIdx := 32#6 } : State).dmxIdx.toNat ≤ j → j < 32 →
      scanning.dmxSnap.getLsbD j = false := by
  refine ⟨by decide, by decide, ⟨by decide, by decide, ?_, by decide⟩, by decide, ?_⟩
  · intro j _ h
    interval_cases j <;> decide
  · intro j h1 h2
    have : 32 ≤ j := h1
    omega

theorem witness_LowestPendingSourceIsDispatched :
    ((glued 0x00001008#32 0xFFFFEFF7#32).dmxActive = false ∧
      (glued 0x00001008#32 0xFFFFEFF7#32).dmxWait = false ∧
      (glued 0x00001008#32 0xFFFFEFF7#32).glueInit = true ∧
      (effectivePending (glued 0x00001008#32 0xFFFFEFF7#32)).getLsbD 3 = true ∧
      (∀ j < 3, (effectivePending (glued 0x00001008#32 0xFFFFEFF7#32)).getLsbD j = false) ∧
      (glued 0x00001008#32 0xFFFFEFF7#32).ht[(3 : Fin 32)].fn ≠ 0#32) ∧
    (waiting.dmxActive = true ∧ waiting.dmxWait = true) ∧
    State.reset.dmxActive = false ∧ irq State.reset = false := by decide

theorem witness_RegisterBlockReadsTheRegisters :
    placed.apiInit = true ∧ (0xF0001213#32 - (placed.mbar + 0x1200#32)).toNat < 0x14 ∧
    (0xF000125C#32 - (placed.mbar + 0x1200#32)).toNat = 0x5C ∧
    (0xF0001268#32 - (placed.mbar + 0x1200#32)).toNat = 0x68 := by decide

/-- The last and first offsets of each range, before and after `APIINIT`; a word that touches the block
with its last byte, with its first, and not at all. -/
theorem witness_EnvironmentStoresReachMemoryAndPrio :
    State.reset.apiInit = false ∧ placed.apiInit = true ∧
    ([0xF0001213#32, 0xF0001214#32, 0xF000125B#32, 0xF000125C#32, 0xF000125F#32, 0xF0001260#32, 0xF0001267#32,
      0xF0001268#32] : List Word).map (fun a => (a - (placed.mbar + 0x1200#32)).toNat) =
      [0x13, 0x14, 0x5B, 0x5C, 0x5F, 0x60, 0x67, 0x68] ∧
    (inBytes 0xF0001211#32 4 0xF0001214#32 ∧ ∀ y, inBytes 0xF0001211#32 (0xF0001214#32 - 0xF0001211#32 : Word).toNat y →
      (y - (placed.mbar + 0x1200#32)).toNat < 0x14) ∧
    (∀ y, inBytes 0xF000125C#32 4 y → 0x5C ≤ (y - (placed.mbar + 0x1200#32)).toNat ∧
      (y - (placed.mbar + 0x1200#32)).toNat < 0x60) ∧
    ({ placed with inputs := [.prio 31 1#8] } : State).inputs = [.prio 31 1#8] := by
  refine ⟨by decide, by decide, by decide, ⟨?_, ?_⟩, ?_, by decide⟩
  · unfold inBytes
    decide
  · intro y h
    simp only [inBytes, placed] at h ⊢
    bv_omega
  · intro y h
    simp only [inBytes, placed] at h ⊢
    bv_omega

/-- Each branch of the stride and of the increment; a setup that is done and one with two FIFO sides. -/
theorem witness_HostSideResolvesTheParameters :
    IncrType.fifo ≠ IncrType.auto ∧ (4 : Int) ≠ 0 ∧ (0 : Int) = 0 ∧ (-2 : Int) ≠ 0 ∧
    (p5Task.globalNumber < 256 ∧ (setUp p5Task p5Profile p5Params [] p5Start).isSome = true ∧
      0 < p5Profile.maxBD ∧ p5Profile.src.incrType ≠ .fifo) ∧
    (p5Start.fatal = false ∧ p5Profile.maxBD ≤ 0xFFFF ∧ p5Params.numBD.toNat ≤ p5Profile.maxBD ∧
      ({ p5Profile with src := p5Profile.dst } : TaskProfile).src.incrType = .fifo ∧
      p5Profile.dst.incrType = .fifo ∧ p5Task.enableSlot.toNat % 4 = 0 ∧ p5Task.baseSlot.toNat % 4 = 0 ∧
      p5Task.lastSlot.toNat % 4 = 0 ∧ p5Task.startSlot.toNat % 4 = 0 ∧
      regCell p5Start p5Task.pragmaAddr = none) := by
  decide

end Sys2Proof.Tests
end

section
/-! PROOF. Reset (`10_state.md` R32, `70_reset_and_hazards.md` R210): the values it gives, and the step
that gives them. -/

namespace Sys2Proof.Proofs

open Sys2Proof.Machine

/-! ## The state of a task -/

theorem taskState_unconfigured_iff {s : State} {t : TaskId} :
    taskState s t = .unconfigured ↔ tcrEn s.tcr[t] = false ∧ s.configured[t] = false := by
  unfold taskState
  cases tcrEn s.tcr[t] <;> cases s.configured[t] <;> simp

/-! ## The values after reset -/

@[simp] theorem resetWith_tcr (c : Config) {i : Nat} (h : i < 16) : (State.resetWith c).tcr[i] = 0#16 :=
  Vector.getElem_replicate h

@[simp] theorem resetWith_sz (c : Config) {i : Nat} (h : i < 8) : (State.resetWith c).sz[i] = 0#8 :=
  Vector.getElem_replicate h

@[simp] theorem resetWith_rt (c : Config) {i : Nat} (h : i < 16) :
    (State.resetWith c).rt[i] = RingEntry.unset :=
  Vector.getElem_replicate h

@[simp] theorem resetWith_ht (c : Config) {i : Nat} (h : i < 32) :
    (State.resetWith c).ht[i] = Handler.none :=
  Vector.getElem_replicate h

@[simp] theorem resetWith_runFlag (c : Config) {i : Nat} (h : i < 16) :
    (State.resetWith c).runFlag[i] = false :=
  Vector.getElem_replicate h

@[simp] theorem resetWith_configured (c : Config) {i : Nat} (h : i < 16) :
    (State.resetWith c).configured[i] = false :=
  Vector.getElem_replicate h

@[simp] theorem resetWith_engCur (c : Config) {i : Nat} (h : i < 16) :
    (State.resetWith c).engCur[i] = 0#16 :=
  Vector.getElem_replicate h

/-- A pending word of 0 reads as 0 through the hardwired bits of R17. -/
@[simp] theorem iprValue_resetWith (c : Config) : iprValue (State.resetWith c) = 0#32 :=
  BitVec.zero_and

/-- A mask of all ones reads as all ones through the hardwired bits of R18. -/
@[simp] theorem imrValue_resetWith (c : Config) :
    imrValue (State.resetWith c) = 0xFFFFFFFF#32 :=
  BitVec.allOnes_or

@[simp] theorem taskState_resetWith (c : Config) (t : TaskId) :
    taskState (State.resetWith c) t = .unconfigured :=
  taskState_unconfigured_iff.mpr ⟨congrArg tcrEn (resetWith_tcr c t.isLt), resetWith_configured c t.isLt⟩

/-- R32, row by row, under any parameters. -/
theorem resetValues_resetWith (c : Config) : ResetValues c.ringMemBase (State.resetWith c) where
  flags := ⟨rfl, rfl, rfl⟩
  tcr t := resetWith_tcr c t.isLt
  ipr := iprValue_resetWith c
  imr := imrValue_resetWith c
  sz k := resetWith_sz c k.isLt
  physOffset := rfl
  allocPtr := rfl
  rt t := resetWith_rt c t.isLt
  ht i := resetWith_ht c i.isLt
  taskFlags t := ⟨resetWith_runFlag c t.isLt, resetWith_configured c t.isLt⟩
  demultiplexer := ⟨rfl, rfl⟩
  engine t := resetWith_engCur c t.isLt
  tasks := taskState_resetWith c

/-- R32 gives no value to what reset keeps: the memory (P6), the schedule and the log (log 17). -/
theorem ResetValues.of_kept {base : Word} {s : State} (h : ResetValues base s) (mem : Memory)
    (inputs : List Input) (log : List Dispatch) :
    ResetValues base { s with mem := mem, inputs := inputs, dispatchLog := log } :=
  { h with }

/-! ## The step -/

theorem resetValues_resetInput (s : State) : ResetValues s.cfg.ringMemBase (resetInput s) := by
  rw [resetInput_eq]
  exact ResetValues.of_kept (resetValues_resetWith s.cfg) s.mem s.inputs s.dispatchLog

/-- A reset is never refused, whatever the state it meets. -/
theorem step_reset {s : State} {rest : List Input} (h : s.inputs = .reset :: rest) :
    step s = .next (resetInput { s with inputs := rest }) :=
  step_cons h

/-- Settles O12: the step is `resetInput`, which has the values of R32 because `State.resetWith` does. -/
theorem resetGivesTheTable : Obligations.ResetGivesTheTable := by
  unfold Obligations.ResetGivesTheTable
  refine ⟨fun s rest hreset => ?_, resetValues_resetWith Config.vectors⟩
  have hvalues := resetValues_resetInput { s with inputs := rest }
  exact ⟨_, step_reset hreset, rfl, hvalues⟩

end Sys2Proof.Proofs
end

section
/-! PROOF. The command word (`30_encoding.md` R61 to R67): the decoder is the printed opcode map, the
operands are the fields of the word, and a word of no row only writes `INVALID_ARG`. -/

namespace Sys2Proof.Proofs

open Sys2Proof.Machine

/-! ## The opcodes -/

theorem mem_opList (o : Op) : o ∈ opList := by
  cases o <;> decide

theorem opOfByte_opCode (o : Op) : opOfByte (opCode o) = some o := by
  cases o <;> rfl

theorem opOfByte_eq_some_iff {b : Byte} {o : Op} : opOfByte b = some o ↔ b = opCode o := by
  constructor
  · intro hfind
    have hcode := List.find?_some hfind
    exact (eq_of_beq hcode).symm
  · rintro rfl
    exact opOfByte_opCode o

/-- No two rows of R65 share an `OP` byte. -/
theorem opCode_injective {o o' : Op} (h : opCode o = opCode o') : o = o' :=
  Option.some.inj ((opOfByte_opCode o).symm.trans (opOfByte_eq_some_iff.mpr h))

@[simp] theorem instrOp_operands (o : Op) (w : Word) : instrOp (operands o w) = o := by
  cases o <;> rfl

/-! ## What the decoder answers -/

/-- `w` is a word of the row of `o`: its `OP` byte is `o`'s and the must-be-zero bits are 0 (R61, R62). -/
def Spells (w : Word) (o : Op) : Prop :=
  opField w = opCode o ∧ w &&& mbzBits (opFormat o) = 0#32

theorem decode_eq_ok_iff {w : Word} {i : Instr} :
    decode w = .ok i ↔ ∃ o, Spells w o ∧ i = operands o w := by
  unfold decode Spells
  cases hop : opOfByte (opField w) with
  | none =>
    have hnone : ∀ o, opField w ≠ opCode o := fun o heq => by
      rw [opOfByte_eq_some_iff.mpr heq] at hop
      cases hop
    simp [hnone]
  | some p =>
    have hp : opField w = opCode p := opOfByte_eq_some_iff.mp hop
    have hunique : ∀ o, opField w = opCode o ↔ p = o := fun o =>
      ⟨fun heq => opCode_injective (hp.symm.trans heq), fun heq => heq ▸ hp⟩
    simp only [hunique, and_assoc, exists_eq_left']
    by_cases hmbz : w &&& mbzBits (opFormat p) = 0#32
    · simp [hmbz, eq_comm]
    · simp [hmbz]

theorem exists_decode_iff_spells {w : Word} {o : Op} :
    (∃ i, decode w = .ok i ∧ instrOp i = o) ↔ Spells w o := by
  simp only [decode_eq_ok_iff]
  constructor
  · rintro ⟨_, ⟨o', hspells, rfl⟩, hop⟩
    rwa [← hop, instrOp_operands]
  · exact fun hspells => ⟨operands o w, ⟨o, hspells, rfl⟩, instrOp_operands o w⟩

/-- R67: a word of no row is refused, by whatever reason. -/
theorem decode_error_of_not_spells {w : Word} (h : ∀ o, ¬Spells w o) : ∃ e, decode w = .error e := by
  cases hdecode : decode w with
  | error e => exact ⟨e, rfl⟩
  | ok i =>
    obtain ⟨o, hspells, -⟩ := decode_eq_ok_iff.mp hdecode
    exact absurd hspells (h o)

/-! ## The printed opcode map -/

/-- The row of R65 that the decoder's own columns give. -/
def opcodeRow (o : Op) : OpcodeRow where
  op := o
  code := opCode o
  format := opFormat o
  pattern := opCode o ++ 0#24
  mask := 0xFF000000#32 ||| mbzBits (opFormat o)

theorem printedOpcodeMap_eq : printedOpcodeMap = opList.map opcodeRow := by
  decide

theorem mem_printedOpcodeMap_iff {r : OpcodeRow} : r ∈ printedOpcodeMap ↔ ∃ o, opcodeRow o = r := by
  simp [printedOpcodeMap_eq, mem_opList]

/-- The must-be-zero bits below `OP`. -/
def mbzLow (f : Format) : BitVec 24 := (mbzBits f).extractLsb' 0 24

theorem mbzBits_eq_append (f : Format) : mbzBits f = 0#8 ++ mbzLow f := by
  cases f <;> decide

theorem opMask_or_mbzBits (f : Format) : 0xFF000000#32 ||| mbzBits f = 0xFF#8 ++ mbzLow f := by
  cases f <;> decide

theorem word_eq_opField_append (w : Word) : w = opField w ++ w.extractLsb' 0 24 :=
  (BitVec.extractLsb'_append_extractLsb' (w := 8) (len := 24) (x := w)).symm

theorem bitVec_append_inj {m n : Nat} {x x' : BitVec m} {y y' : BitVec n} :
    x ++ y = x' ++ y' ↔ x = x' ∧ y = y' := by
  constructor
  · intro h
    have hleft := congrArg (BitVec.extractLsb' n m) h
    have hright := congrArg (BitVec.extractLsb' 0 n) h
    rw [BitVec.extractLsb'_append_eq_left, BitVec.extractLsb'_append_eq_left] at hleft
    rw [BitVec.extractLsb'_append_eq_right, BitVec.extractLsb'_append_eq_right] at hright
    exact ⟨hleft, hright⟩
  · rintro ⟨rfl, rfl⟩
    rfl

/-- `w & mask = match` tests the `OP` byte and the must-be-zero bits, each half of the word for itself. -/
theorem opcodeRow_matches_iff {w : Word} {o : Op} :
    w &&& (opcodeRow o).mask = (opcodeRow o).pattern ↔ Spells w o := by
  have hmask : w &&& (opcodeRow o).mask =
      opField w ++ (w.extractLsb' 0 24 &&& mbzLow (opFormat o)) := by
    calc w &&& (opcodeRow o).mask
      _ = (opField w ++ w.extractLsb' 0 24) &&& (0xFF#8 ++ mbzLow (opFormat o)) := by
        rw [← word_eq_opField_append, ← opMask_or_mbzBits]
        rfl
      _ = opField w ++ (w.extractLsb' 0 24 &&& mbzLow (opFormat o)) := by
        rw [BitVec.and_append, show 0xFF#8 = BitVec.allOnes 8 from rfl, BitVec.and_allOnes]
  have hmbz : w &&& mbzBits (opFormat o) = 0#8 ++ (w.extractLsb' 0 24 &&& mbzLow (opFormat o)) := by
    calc w &&& mbzBits (opFormat o)
      _ = (opField w ++ w.extractLsb' 0 24) &&& (0#8 ++ mbzLow (opFormat o)) := by
        rw [← word_eq_opField_append, ← mbzBits_eq_append]
      _ = 0#8 ++ (w.extractLsb' 0 24 &&& mbzLow (opFormat o)) := by
        rw [BitVec.and_append, BitVec.and_zero]
  have hzero : (0#32 : Word) = 0#8 ++ 0#24 := by decide
  rw [Spells, hmask, hmbz, hzero, BitVec.append_right_inj]
  exact bitVec_append_inj

/-- Settles O3: every row is the decoder's own (`opcodeRow`), and a word matches it exactly when it
spells its opcode. -/
theorem opcodeMapIsThePrintedTable : Obligations.OpcodeMapIsThePrintedTable := by
  unfold Obligations.OpcodeMapIsThePrintedTable
  simp only [mem_printedOpcodeMap_iff, forall_exists_index, forall_apply_eq_imp_iff,
    opcodeRow_matches_iff]
  refine ⟨by rfl, fun o => ⟨rfl, rfl, rfl⟩, fun o w => exists_decode_iff_spells, ?_⟩
  intro o o' w hspells hspells'
  rw [opCode_injective (hspells.1.symm.trans hspells'.1)]

/-! ## The operands -/

/-- A field of the word as a number (R63). -/
theorem toNat_extractLsb' (w : Word) (start len : Nat) :
    (w.extractLsb' start len).toNat = w.toNat / 2 ^ start % 2 ^ len := by
  rw [BitVec.extractLsb'_toNat, Nat.shiftRight_eq_div_pow]

theorem toNat_extractLsb'_zero (w : Word) (len : Nat) :
    (w.extractLsb' 0 len).toNat = w.toNat % 2 ^ len := by
  rw [toNat_extractLsb', Nat.pow_zero, Nat.div_one]

theorem tidField_eq (w : Word) : tidField w = w.toNat / 2 ^ 16 % 2 ^ 8 :=
  toNat_extractLsb' w 16 8

/-- The one signed field: two's complement takes 2^16 off where bit 15 is set (R63). -/
theorem toInt_immField (w : Word) :
    (immField w).toInt =
      (w.toNat % 2 ^ 16 : Int) - (if w.toNat.testBit 15 then 2 ^ 16 else 0) := by
  have hsign : (immField w).msb = w.toNat.testBit 15 := by
    simp [immField, BitVec.msb_eq_getLsbD_last, BitVec.testBit_toNat]
  have hvalue : ((immField w).toNat : Int) = (w.toNat % 2 ^ 16 : Int) := by
    rw [immField, toNat_extractLsb'_zero]
    norm_cast
  rw [BitVec.toInt_eq_msb_cond, hsign, hvalue]
  split <;> simp

/-- Settles O4: the operands of a decoded word are `operands` of its row, one case per opcode. -/
theorem operandsAreTheFieldsOfTheWord : Obligations.OperandsAreTheFieldsOfTheWord := by
  unfold Obligations.OperandsAreTheFieldsOfTheWord
  intro w i hdecode
  obtain ⟨o, -, rfl⟩ := decode_eq_ok_iff.mp hdecode
  cases o with
  | apiinit => rfl
  | tstart => exact ⟨tidField_eq w, toNat_extractLsb' w 8 8, rfl, rfl⟩
  | bdsetup => exact ⟨tidField_eq w, toNat_extractLsb' w 8 8, toNat_extractLsb'_zero w 2⟩
  | bdget => exact ⟨tidField_eq w, toNat_extractLsb'_zero w 16⟩
  | tcfg => exact ⟨tidField_eq w, toInt_immField w⟩
  | tseti => exact ⟨tidField_eq w, toNat_extractLsb' w 8 5, rfl⟩
  | drdpatch => exact toNat_extractLsb'_zero w 5
  | szset => exact ⟨tidField_eq w, toNat_extractLsb' w 2 2, toNat_extractLsb'_zero w 2⟩
  | tintsrc | ginit | ghdone => trivial
  | tstop | tstat | bdassign | bdrelease | bdreset | bdring | bdinuse | tintclr | tintstat | tintpend
  | girqen | girqdis | ginstall => exact tidField_eq w

/-! ## Illegal words -/

theorem runWord_error {w : Word} {e : DecodeError} {s : State} (h : decode w = .error e) :
    runWord w s = .next (s.ret invalidArg) := by
  rw [runWord, h]

/-- A write of `CMD` that is not refused latches the word and runs it (R60). -/
theorem step_cmd {s : State} {w : Word} {rest : List Input} (h : s.inputs = .cmd w :: rest)
    (hlive : s.fatal = false) : step s = runWord w { s with inputs := rest, cmd := w } := by
  rw [step_cons h]
  exact if_neg (by simp [hlive])

/-- Settles O6: a word of no row spells no opcode, so the decoder refuses it. -/
theorem illegalWordOnlyWritesInvalidArg : Obligations.IllegalWordOnlyWritesInvalidArg := by
  unfold Obligations.IllegalWordOnlyWritesInvalidArg
  simp only [mem_printedOpcodeMap_iff, forall_exists_index, forall_apply_eq_imp_iff, ne_eq,
    opcodeRow_matches_iff]
  constructor
  · intro s w rest hcmd hlive hillegal
    obtain ⟨e, herror⟩ := decode_error_of_not_spells hillegal
    exact ⟨w, (step_cmd hcmd hlive).trans (runWord_error herror)⟩
  · intro o
    have hcode : 0x00#8 ≠ opCode o ∧ 0xFF#8 ≠ opCode o := by cases o <;> decide
    exact ⟨fun hspells => hcode.1 hspells.1, fun hspells => hcode.2 hspells.1⟩

end Sys2Proof.Proofs
end

section
/-! PROOF. The argument registers a command reads (`30_encoding.md` R64, `41_bd_ring.md` R108 d): a write
to any other one commutes with the command. -/

namespace Sys2Proof.Proofs

open Sys2Proof.Machine

/-- `A[n] <- v` and nothing else: `writeArg` without its record that the host wrote the register. -/
def setArg (n : Fin 6) (v : Word) (s : State) : State := { s with args := s.args.set n v }

section
variable {n m : Fin 6} {v : Word} {s s' : State}

theorem argReg_setArg_of_ne (h : n ≠ m) : argReg (setArg n v s) m = argReg s m :=
  Vector.getElem_set_ne n.isLt m.isLt (Fin.val_ne_of_ne h)

/-! ## What commutes with the write -/

theorem ite_setArg {c : Prop} [Decidable c] {a a' b b' : State} (ha : a' = setArg n v a)
    (hb : b' = setArg n v b) : (if c then a' else b') = setArg n v (if c then a else b) := by
  split
  · exact ha
  · exact hb

theorem withTask_setArg {t : Nat} {body body' : TaskId → State}
    (h : ∀ u, t = u.val → body' u = setArg n v (body u)) :
    withTask t (setArg n v s) body' = setArg n v (withTask t s body) := by
  by_cases ht : t < 16
  · rw [withTask_lt _ _ ht, withTask_lt _ _ ht]
    exact h ⟨t, ht⟩ rfl
  · rw [withTask_ge _ _ (Nat.le_of_not_lt ht), withTask_ge _ _ (Nat.le_of_not_lt ht)]
    rfl

theorem withSource_setArg {i : Nat} {body body' : State} (h : body' = setArg n v body) :
    withSource i (setArg n v s) body' = setArg n v (withSource i s body) :=
  ite_setArg h rfl

/-- The gate of R60 does not look at the argument registers, so a rule that commutes with the write makes
a command that does. -/
theorem command_setArg {body : State → State} (h : command s body = .next s')
    (hbody : body (setArg n v s) = setArg n v (body s)) :
    command (setArg n v s) body = .next (setArg n v s') := by
  rcases command_next_iff.mp h with ⟨hfatal, rfl⟩ | ⟨hlive, rfl⟩
  · exact command_stopped hfatal
  · rw [command_live (s := setArg n v s) hlive, hbody]

/-! ## The commands that list argument registers -/

theorem execApiinit_setArg {vm : Bool} (h : execApiinit vm s = .next s') (h0 : n ≠ 0)
    (h1 : vm = true → n ≠ 1) :
    execApiinit vm (setArg n v s) = .next (setArg n v s') := by
  refine command_setArg h (ite_setArg rfl ?_)
  rw [argReg_setArg_of_ne h0]
  cases vm with
  | false => rfl
  | true =>
    rw [argReg_setArg_of_ne (h1 rfl)]
    rfl

/-- R108 (d): the second pointer goes nowhere in a ring of one pointer per BD. -/
theorem assignBd_of_numPtr_ne_two {e : RingEntry} (h : e.numPtr ≠ 2#2) (i : Nat)
    (buf0 buf1 buf1' status : Word) (mem : Memory) :
    assignBd e i buf0 buf1 status mem = assignBd e i buf0 buf1' status mem := by
  simp only [assignBd, if_neg h]

theorem execBdassign_setArg {t : Nat} (h : execBdassign t s = .next s') (h0 : n ≠ 0)
    (h1 : n = 1 → ∀ u : TaskId, t = u.val → s.rt[u].numPtr ≠ 2#2) (h2 : n ≠ 2) (h3 : n ≠ 3) :
    execBdassign t (setArg n v s) = .next (setArg n v s') := by
  refine command_setArg h (withTask_setArg fun u hu => ?_)
  have hmem : ∀ (i : Nat) (status : Word),
      assignBd s.rt[u] i (argReg s 0) (argReg (setArg n v s) 1) status s.mem =
        assignBd s.rt[u] i (argReg s 0) (argReg s 1) status s.mem := fun i status => by
    by_cases hn : n = 1
    · exact assignBd_of_numPtr_ne_two (h1 hn u hu) ..
    · rw [argReg_setArg_of_ne hn]
  simp only [argReg_setArg_of_ne h0, argReg_setArg_of_ne h2, argReg_setArg_of_ne h3]
  refine ite_setArg rfl (ite_setArg rfl ?_)
  exact congrArg (fun m => setArg n v (State.ret (State.setRing { s with mem := m } u _) _)) (hmem _ _)

theorem execTcfg_setArg {g : Nat} {policy : Int} (h : execTcfg g policy s = .next s') (h0 : n ≠ 0) :
    execTcfg g policy (setArg n v s) = .next (setArg n v s') := by
  refine command_setArg h ?_
  simp only [argReg_setArg_of_ne h0]
  refine ite_setArg rfl ?_
  by_cases hslot : argReg s 0 = 0#32
  · simp only [if_pos hslot]
    rfl
  · simp only [if_neg hslot]
    rfl

theorem execDrdpatch_setArg {init : BitVec 5} (h : execDrdpatch init s = .next s') (h0 : n ≠ 0)
    (h1 : n ≠ 1) : execDrdpatch init (setArg n v s) = .next (setArg n v s') := by
  refine command_setArg h ?_
  simp only [argReg_setArg_of_ne h0, argReg_setArg_of_ne h1]
  exact ite_setArg rfl (ite_setArg rfl rfl)

theorem execGinstall_setArg {i : Nat} (h : execGinstall i s = .next s') (h0 : n ≠ 0) (h1 : n ≠ 1) :
    execGinstall i (setArg n v s) = .next (setArg n v s') := by
  refine command_setArg h ?_
  simp only [argReg_setArg_of_ne h0, argReg_setArg_of_ne h1]
  split <;> rfl

/-! ## The commands that list none -/

theorem execTstart_setArg {t ast : Nat} {ase ie : Bool} (h : execTstart t ase ast ie s = .next s') :
    execTstart t ase ast ie (setArg n v s) = .next (setArg n v s') :=
  command_setArg h (withTask_setArg fun _ _ => ite_setArg rfl (ite_setArg rfl rfl))

theorem execTstop_setArg {t : Nat} (h : execTstop t s = .next s') :
    execTstop t (setArg n v s) = .next (setArg n v s') :=
  command_setArg h (withTask_setArg fun _ _ => rfl)

theorem execTstat_setArg {t : Nat} (h : execTstat t s = .next s') :
    execTstat t (setArg n v s) = .next (setArg n v s') :=
  command_setArg h (withTask_setArg fun _ _ => rfl)

theorem execBdrelease_setArg {t : Nat} (h : execBdrelease t s = .next s') :
    execBdrelease t (setArg n v s) = .next (setArg n v s') :=
  command_setArg h (withTask_setArg fun _ _ => ite_setArg rfl (ite_setArg rfl rfl))

theorem execBdreset_setArg {t : Nat} (h : execBdreset t s = .next s') :
    execBdreset t (setArg n v s) = .next (setArg n v s') :=
  command_setArg h (withTask_setArg fun _ _ => ite_setArg rfl rfl)

theorem execBdget_setArg {t idx : Nat} (h : execBdget t idx s = .next s') :
    execBdget t idx (setArg n v s) = .next (setArg n v s') := by
  refine command_setArg h ?_
  cases taskHandle t with
  | none => rfl
  | some u => exact ite_setArg rfl rfl

theorem execBdring_setArg {t : Nat} (h : execBdring t s = .next s') :
    execBdring t (setArg n v s) = .next (setArg n v s') := by
  refine command_setArg h ?_
  cases taskHandle t with
  | none => rfl
  | some u => exact ite_setArg rfl rfl

theorem execBdinuse_setArg {t : Nat} (h : execBdinuse t s = .next s') :
    execBdinuse t (setArg n v s) = .next (setArg n v s') :=
  command_setArg h (withTask_setArg fun _ _ => rfl)

theorem execTseti_setArg {t : Nat} {init : BitVec 5} {hold : Bool} (h : execTseti t init hold s = .next s') :
    execTseti t init hold (setArg n v s) = .next (setArg n v s') :=
  command_setArg h (withTask_setArg fun _ _ => rfl)

theorem execSzset_setArg {t : Nat} {src dst : BitVec 2} (h : execSzset t src dst s = .next s') :
    execSzset t src dst (setArg n v s) = .next (setArg n v s') :=
  command_setArg h (withTask_setArg fun _ _ => rfl)

theorem execTintclr_setArg {i : Nat} (h : execTintclr i s = .next s') :
    execTintclr i (setArg n v s) = .next (setArg n v s') :=
  command_setArg h (withSource_setArg rfl)

theorem execTintstat_setArg {i : Nat} (h : execTintstat i s = .next s') :
    execTintstat i (setArg n v s) = .next (setArg n v s') :=
  command_setArg h (withTask_setArg fun _ _ => ite_setArg rfl (ite_setArg rfl (ite_setArg rfl rfl)))

theorem execTintpend_setArg {i : Nat} (h : execTintpend i s = .next s') :
    execTintpend i (setArg n v s) = .next (setArg n v s') :=
  command_setArg h (withTask_setArg fun _ _ => ite_setArg rfl rfl)

theorem execTintsrc_setArg (h : execTintsrc s = .next s') :
    execTintsrc (setArg n v s) = .next (setArg n v s') := by
  refine command_setArg h (ite_setArg rfl ?_)
  have hpending : effectivePending (setArg n v s) = effectivePending s := rfl
  rw [hpending]
  cases highestTask (effectivePending s) 16 with
  | none => rfl
  | some t => rfl

theorem execGinit_setArg (h : execGinit s = .next s') :
    execGinit (setArg n v s) = .next (setArg n v s') :=
  command_setArg h (ite_setArg rfl rfl)

theorem execGirqen_setArg {i : Nat} (h : execGirqen i s = .next s') :
    execGirqen i (setArg n v s) = .next (setArg n v s') :=
  command_setArg h (withSource_setArg rfl)

theorem execGirqdis_setArg {i : Nat} (h : execGirqdis i s = .next s') :
    execGirqdis i (setArg n v s) = .next (setArg n v s') :=
  command_setArg h (withSource_setArg rfl)

theorem execGhdone_setArg (h : execGhdone s = .next s') :
    execGhdone (setArg n v s) = .next (setArg n v s') :=
  command_setArg h (ite_setArg rfl rfl)

/-! ## All commands -/

/-- R64, one case per command: a register that is not listed is not read. -/
theorem exec_setArg {i : Instr} (h : exec i s = .next s') (hn : n ∉ listedArgs i) :
    exec i (setArg n v s) = .next (setArg n v s') := by
  cases i with
  | apiinit vm =>
    cases vm with
    | false => exact execApiinit_setArg h (by simpa [listedArgs] using hn) nofun
    | true =>
      obtain ⟨h0, h1⟩ : n ≠ 0 ∧ n ≠ 1 := by simpa [listedArgs] using hn
      exact execApiinit_setArg h h0 fun _ => h1
  | bdsetup t np apiConfig =>
    have hall : ∀ k : Fin 6, k ∈ ([0, 1, 2, 3, 4, 5] : List (Fin 6)) := by decide
    exact absurd (hall n) hn
  | bdassign t =>
    obtain ⟨h0, h1, h2, h3⟩ : n ≠ 0 ∧ n ≠ 1 ∧ n ≠ 2 ∧ n ≠ 3 := by simpa [listedArgs] using hn
    exact execBdassign_setArg h h0 (fun hn1 => absurd hn1 h1) h2 h3
  | tcfg g policy => exact execTcfg_setArg h (by simpa [listedArgs] using hn)
  | drdpatch init =>
    obtain ⟨h0, h1⟩ : n ≠ 0 ∧ n ≠ 1 := by simpa [listedArgs] using hn
    exact execDrdpatch_setArg h h0 h1
  | ginstall i =>
    obtain ⟨h0, h1⟩ : n ≠ 0 ∧ n ≠ 1 := by simpa [listedArgs] using hn
    exact execGinstall_setArg h h0 h1
  | tstart t ase ast ie => exact execTstart_setArg h
  | tstop t => exact execTstop_setArg h
  | tstat t => exact execTstat_setArg h
  | bdrelease t => exact execBdrelease_setArg h
  | bdreset t => exact execBdreset_setArg h
  | bdget t idx => exact execBdget_setArg h
  | bdring t => exact execBdring_setArg h
  | bdinuse t => exact execBdinuse_setArg h
  | tseti t init hold => exact execTseti_setArg h
  | szset t src dst => exact execSzset_setArg h
  | tintclr i => exact execTintclr_setArg h
  | tintstat i => exact execTintstat_setArg h
  | tintpend i => exact execTintpend_setArg h
  | tintsrc => exact execTintsrc_setArg h
  | ginit => exact execGinit_setArg h
  | girqen i => exact execGirqen_setArg h
  | girqdis i => exact execGirqdis_setArg h
  | ghdone => exact execGhdone_setArg h

end

/-- Settles O48: the unlisted registers by `exec_setArg`, and `A1` of `BDASSIGN` on a ring that is not
2-pointer by R108 (d). -/
theorem commandsReadOnlyTheListedArguments : Obligations.CommandsReadOnlyTheListedArguments := by
  unfold Obligations.CommandsReadOnlyTheListedArguments
  rintro i s s' n v hexec (hunlisted | ⟨rfl, t, rfl, hptr⟩)
  · exact exec_setArg hexec hunlisted
  · have hring : ∀ u : TaskId, t.val = u.val → s.rt[u].numPtr ≠ 2#2 := fun u hu => Fin.ext hu ▸ hptr
    exact execBdassign_setArg hexec (by decide) (fun _ => hring) (by decide) (by decide)

end Sys2Proof.Proofs
end

section
/-! PROOF. The commands of task control (`40_task_control.md` R80 to R87): what each leaves with `FATAL`
= 0, and when `TSTART` and `TCFG` (`42_tcr_config.md` R130) are refused. -/

namespace Sys2Proof.Proofs

open Sys2Proof.Machine

/-! ## Setting and clearing `EN` -/

theorem tcrEnable_getLsbD_ite (v : Half) {k : Nat} (hk : k < 16) :
    (tcrEnable v).getLsbD k = if k = 15 then true else v.getLsbD k := by
  rw [tcrEnable_getLsbD v hk]
  by_cases hen : k = 15 <;> simp [hen]

theorem tcrDisable_getLsbD_ite (v : Half) {k : Nat} (hk : k < 16) :
    (tcrDisable v).getLsbD k = if k = 15 then false else v.getLsbD k := by
  rw [tcrDisable_getLsbD v hk]
  by_cases hen : k = 15 <;> simp [hen]

/-! ## Commands with a task operand -/

theorem command_withTask_handle {s : State} {body : State → TaskId → State} (hlive : s.fatal = false)
    (t : TaskId) : command s (fun s => withTask t.val s (body s)) = .next (body s t) := by
  rw [command_live hlive, withTask_lt _ _ t.isLt]

theorem command_withTask_refused {s : State} {body : State → TaskId → State} {t : Nat}
    (hlive : s.fatal = false) (ht : 16 ≤ t) :
    command s (fun s => withTask t s (body s)) = .next (s.ret invalidArg) := by
  rw [command_live hlive, withTask_ge _ _ ht]

/-! ## `APIINIT` -/

/-- `dev` and `cpu` add and take off the same offset, modulo 2^32 (R50). -/
@[simp] theorem cpu_dev (s : State) (a : Word) : cpu s (dev s a) = a :=
  BitVec.add_sub_cancel a s.physOffset

@[simp] theorem dev_cpu (s : State) (p : Word) : dev s (cpu s p) = p :=
  BitVec.sub_add_cancel p s.physOffset

/-- Settles O18: with `FATAL` = 0 the rule of `APIINIT` runs, one case per value of `API_INIT`. -/
theorem apiinitRecordsTheBasesOnce : Obligations.ApiinitRecordsTheBasesOnce := by
  unfold Obligations.ApiinitRecordsTheBasesOnce
  intro vm s hlive
  rw [exec, execApiinit, command_live hlive]
  refine ⟨fun hfirst => ?_, fun hlater => ?_, fun a => ⟨cpu_dev s a, dev_cpu s a⟩⟩
  · rw [hfirst]
    rfl
  · rw [if_pos hlater]
    rfl

/-! ## `TSTOP` -/

/-- Settles O20: the TCR word left is `tcrDisable`, which clears bit 15 alone. -/
theorem tstopClearsTheEnableBit : Obligations.TstopClearsTheEnableBit := by
  unfold Obligations.TstopClearsTheEnableBit
  refine fun s hlive => ⟨fun t => ⟨tcrDisable s.tcr[t], ?_, fun k hk => ?_⟩, fun t ht => ?_⟩
  · rw [exec, execTstop, command_withTask_handle hlive]
    rfl
  · exact tcrDisable_getLsbD_ite _ hk
  · rw [exec, execTstop, command_withTask_refused hlive ht]
    rfl

/-! ## `TSTAT` -/

/-- One bit as a register shows it. -/
theorem setWidth_ofBool (b : Bool) : (BitVec.ofBool b).setWidth 32 = if b then 1#32 else 0#32 := by
  cases b <;> rfl

/-- Settles O21: `RES` and `RET1` are the two bits, widened. -/
theorem tstatReportsEnableAndFlag : Obligations.TstatReportsEnableAndFlag := by
  unfold Obligations.TstatReportsEnableAndFlag
  refine fun s hlive => ⟨fun t => ?_, fun t ht => ?_⟩
  · rw [exec, execTstat, command_withTask_handle hlive, setWidth_ofBool, setWidth_ofBool]
    rfl
  · rw [exec, execTstat, command_withTask_refused hlive ht]
    rfl

/-! ## `TSTART` and `TCFG`: refused or not -/

theorem exec_tstart_refused {s : State} {u : TaskId} {ast : Nat} {ase ie : Bool} (hlive : s.fatal = false)
    (h : (ase = true ∧ 16 ≤ ast) ∨ s.configured[u] = false) :
    exec (.tstart u.val ase ast ie) s = .next (s.ret invalidArg) := by
  rw [exec, execTstart, command_withTask_handle hlive]
  rcases h with hast | hcfg
  · rw [if_pos hast]
  · rw [if_pos hcfg, ite_self]

theorem exec_tstart_starts {s : State} {u : TaskId} {ast : Nat} {ase ie : Bool} (hlive : s.fatal = false)
    (hast : ase = true → ast < 16) (hcfg : s.configured[u] = true) :
    exec (.tstart u.val ase ast ie) s = .next ((((s.setMaskBit u.val ie).setTcr u
      (startedTcr s.cfg.startAlwaysWritesAs ase ast s.tcr[u])).setRunFlag u true).ret noErr) := by
  rw [exec, execTstart, command_withTask_handle hlive,
    if_neg fun hbad => Nat.not_le_of_lt (hast hbad.1) hbad.2, if_neg (by simp [hcfg])]

/-- The test of a slot address (R43) on its value. -/
theorem aligned_iff {a : Word} : aligned a = true ↔ a.toNat % 4 = 0 := by
  rw [aligned, beq_iff_eq, ← BitVec.toNat_inj, toNat_extractLsb'_zero]
  rfl

theorem exec_tcfg_refused {s : State} {g : Nat} {policy : Int} (hlive : s.fatal = false)
    (hslot : (argReg s 0).toNat % 4 ≠ 0) : exec (.tcfg g policy) s = .next (s.ret invalidArg) := by
  rw [exec, execTcfg, command_live hlive]
  exact congrArg _ (if_pos (Bool.eq_false_iff.mpr (mt aligned_iff.mp hslot)))

theorem exec_tcfg_configures {s : State} {g : Nat} {policy : Int} (hlive : s.fatal = false)
    (hslot : (argReg s 0).toNat % 4 = 0) :
    exec (.tcfg g policy) s = .next ((State.setTcr
      (if argReg s 0 = 0#32 then (s.setRunFlag (globalTask g) false).setConfigured (globalTask g)
        else ((s.setRunFlag (globalTask g) false).setConfigured (globalTask g)).memWrite (argReg s 0)
          (dev s (addrTcr s (globalTask g))))
      (globalTask g) (tcrWithAutoStart (policyFields (globalTask g) policy).1
        (policyFields (globalTask g) policy).2 s.tcr[globalTask g])).ret
      (BitVec.ofNat 32 (globalTask g).val)) := by
  rw [exec, execTcfg, command_live hlive]
  exact congrArg _ (if_neg (by simp [aligned_iff.mpr hslot]))

end Sys2Proof.Proofs
end

section
/-! PROOF. The engine's moves (`40_task_control.md` R90 to R95): the interrupt events, the auto-start
chain, and the BD at the engine's cursor. -/

namespace Sys2Proof.Proofs

open Sys2Proof.Machine

/-- A move of the engine whose precondition holds is made. -/
theorem step_engine {s s' : State} {e : EngineEvent} {rest : List Input}
    (h : s.inputs = .engine e :: rest) (hmove : engineMove e { s with inputs := rest } = some s') :
    step s = .next s' := by
  rw [step_cons h, applyInput, hmove, Option.getD_some]

/-! ## The pending word -/

/-- The bits of `IPR` that exist: the sources and `TEA_TASK` (R17). -/
theorem iprMask_getLsbD {k : Nat} :
    iprMask.getLsbD k = (isSource k || decide (24 ≤ k ∧ k ≤ 27)) := by
  by_cases hk : k < 32
  · interval_cases k <;> rfl
  · have hhigh : ∀ v : Word, v.getLsbD k = false := fun v => BitVec.getLsbD_of_ge v k (by omega)
    rw [hhigh, isSource, hhigh, Bool.false_or, decide_eq_false (by omega)]

theorem withTeaTask_getLsbD (t : BitVec 4) (v : Word) {k : Nat} (hk : k < 32) :
    (withTeaTask t v).getLsbD k = if 24 ≤ k ∧ k ≤ 27 then t.getLsbD (k - 24) else v.getLsbD k := by
  simp only [withTeaTask, BitVec.getLsbD_or, BitVec.getLsbD_and, BitVec.getLsbD_shiftLeft,
    BitVec.getLsbD_setWidth]
  interval_cases k <;> simp

/-- Pending a source sets its bit as `IPR` reads and keeps every other one (R90). -/
theorem iprValue_pend_getLsbD (s : State) {i k : Nat} (hi : isSource i = true) (hk : k < 32) :
    (iprValue (s.pend i)).getLsbD k = if k = i then true else (iprValue s).getLsbD k := by
  rw [State.pend, iprValue_setIpr, BitVec.getLsbD_and, bitSet_getLsbD _ _ hk, iprValue,
    BitVec.getLsbD_and]
  by_cases hki : k = i
  · subst hki
    simp [iprMask_getLsbD, hi]
  · simp [hki]

/-- `E_TEA` pends source 28 with the task `t` in the sub-field (R94). -/
theorem iprValue_tea_getLsbD (s : State) (t : TaskId) {k : Nat} (hk : k < 32) :
    (iprValue (s.setIpr (withTeaTask (BitVec.ofNat 4 t.val) (bitSet s.ipr 28)))).getLsbD k =
      if k = 28 then true else if 24 ≤ k ∧ k ≤ 27 then t.val.testBit (k - 24)
      else (iprValue s).getLsbD k := by
  rw [iprValue_setIpr, BitVec.getLsbD_and, withTeaTask_getLsbD _ _ hk]
  by_cases hsub : 24 ≤ k ∧ k ≤ 27
  · have hfield : k - 24 < 4 := by omega
    rw [if_pos hsub, if_neg (by omega), if_pos hsub, BitVec.getLsbD_ofNat]
    simp [iprMask_getLsbD, hsub, hfield]
  · calc (if 24 ≤ k ∧ k ≤ 27 then _ else (bitSet s.ipr 28).getLsbD k) && iprMask.getLsbD k
      _ = (iprValue (s.pend 28)).getLsbD k := by
        rw [if_neg hsub, State.pend, iprValue_setIpr, BitVec.getLsbD_and]
      _ = if k = 28 then true else (iprValue s).getLsbD k :=
        iprValue_pend_getLsbD s (isSource_iff.mpr (by decide)) hk
      _ = _ := by rw [if_neg hsub]

/-- Settles O51: `E_INT` and `E_DBG` pend a source; `E_TEA` pends 28 and overwrites the sub-field. -/
theorem engineEventsSetPendingBits : Obligations.EngineEventsSetPendingBits := by
  unfold Obligations.EngineEventsSetPendingBits
  refine fun s rest => ⟨fun t hint => ⟨_, step_engine hint rfl, fun k hk => ?_⟩,
    fun t htea => ⟨_, step_engine htea rfl, fun k hk => ?_⟩,
    fun hdbg => ⟨_, step_engine hdbg rfl, fun k hk => ?_⟩⟩
  · exact iprValue_pend_getLsbD s (isSource_iff.mpr (.inl t.isLt)) hk
  · exact iprValue_tea_getLsbD s t hk
  · exact iprValue_pend_getLsbD s (isSource_iff.mpr (by decide)) hk

/-! ## Completion and self-disable -/

theorem val_autoStartTask (v : Half) : (autoStartTask v).val = v.toNat % 16 := by
  simp [autoStartTask, tcrAst]

theorem engineDone_chained {s : State} {t u : TaskId} (hrun : tcrEn s.tcr[t] = true)
    (hase : tcrAse s.tcr[t] = true) (hu : autoStartTask s.tcr[t] = u) :
    engineDone t s = some (s.setTcr u (tcrEnable s.tcr[u])) := by
  subst hu
  rw [engineDone, if_pos hrun, if_pos hase]

theorem engineDone_last {s : State} {t : TaskId} (hrun : tcrEn s.tcr[t] = true)
    (hase : tcrAse s.tcr[t] = false) : engineDone t s = some s := by
  rw [engineDone, if_pos hrun, hase, if_neg Bool.false_ne_true]

theorem engineDone_isSome (s : State) (t : TaskId) : (engineDone t s).isSome = tcrEn s.tcr[t] := by
  unfold engineDone
  cases tcrEn s.tcr[t] <;> cases tcrAse s.tcr[t] <;> rfl

theorem engineSelfDis_isSome (s : State) (t : TaskId) :
    (engineSelfDis t s).isSome = tcrEn s.tcr[t] := by
  unfold engineSelfDis
  cases tcrEn s.tcr[t] <;> rfl

theorem engineSelfDis_running {s : State} {t : TaskId} (h : tcrEn s.tcr[t] = true) :
    engineSelfDis t s = some (s.setTcr t (tcrDisable s.tcr[t])) :=
  if_pos h

/-- Settles O52: the task of the chain is `autoStartTask`, and the words left differ in bit 15 alone. -/
theorem engineCompletionAndSelfDisable : Obligations.EngineCompletionAndSelfDisable := by
  unfold Obligations.EngineCompletionAndSelfDisable
  intro s rest t hrun
  refine ⟨fun u hdone hase hu => ⟨tcrEnable s.tcr[u], ?_, fun k hk => ?_⟩, fun hdone hase => ?_,
    fun hself => ⟨tcrDisable s.tcr[t], ?_, fun k hk => ?_⟩⟩
  · exact step_engine hdone (engineDone_chained hrun hase (Fin.ext ((val_autoStartTask _).trans hu.symm)))
  · exact tcrEnable_getLsbD_ite _ hk
  · exact step_engine hdone (engineDone_last hrun hase)
  · exact step_engine hself (engineSelfDis_running hrun)
  · exact tcrDisable_getLsbD_ite _ hk

/-! ## The BD at the engine's cursor -/

/-- Settles O53: the precondition of `E_BDDONE` holds, and the memory left is one word write. -/
theorem engineFinishesTheBdAtItsCursor : Obligations.EngineFinishesTheBdAtItsCursor := by
  unfold Obligations.EngineFinishesTheBdAtItsCursor
  intro s rest t status hmove hstatus hbase hlive a hready
  refine ⟨s.mem.writeWord a status, step_engine hmove ?_, Memory.readWord_writeWord_same _ _ _,
    fun x hx => Memory.readByte_writeWord_other _ _ hx⟩
  exact if_pos ⟨hstatus, hbase, hlive, hready⟩

end Sys2Proof.Proofs
end

section
/-! PROOF. The state of a task (`10_state.md` R27, `40_task_control.md` R96): its two bits `EN` and `CFG`,
what every move makes of them, and the transition table. -/

namespace Sys2Proof.Proofs

open Sys2Proof.Machine

/-! ## `EN` under the updates of a TCR -/

@[simp] theorem tcrEn_tcrEnable (v : Half) : tcrEn (tcrEnable v) = true :=
  tcrEnable_getLsbD_ite v (by decide)

@[simp] theorem tcrEn_tcrDisable (v : Half) : tcrEn (tcrDisable v) = false :=
  tcrDisable_getLsbD_ite v (by decide)

@[simp] theorem tcrEn_tcrWithAutoStart (ase : Bool) (ast : BitVec 4) (v : Half) :
    tcrEn (tcrWithAutoStart ase ast v) = tcrEn v :=
  tcrWithAutoStart_getLsbD ase ast v (by decide)

@[simp] theorem tcrEn_tcrWithInit (init : BitVec 5) (hold : Bool) (v : Half) :
    tcrEn (tcrWithInit init hold v) = tcrEn v :=
  tcrWithInit_getLsbD init hold v (by decide)

@[simp] theorem tcrEn_startedTcr (always ase : Bool) (ast : Nat) (v : Half) :
    tcrEn (startedTcr always ase ast v) = true :=
  tcrEn_tcrEnable _

/-! ## The two bits of a task -/

/-- `EN` and `CFG` of a task, which its state is a view of (R27). -/
def taskBits (s : State) (t : TaskId) : Bool × Bool := (tcrEn s.tcr[t], s.configured[t])

/-- The state the two bits show. -/
def bitsState : Bool × Bool → TaskState
  | (true, _) => .running
  | (false, true) => .stopped
  | (false, false) => .unconfigured

theorem taskState_eq_bitsState (s : State) (t : TaskId) : taskState s t = bitsState (taskBits s t) := by
  rw [taskState, taskBits]
  cases tcrEn s.tcr[t] <;> cases s.configured[t] <;> rfl

theorem taskState_running_iff {s : State} {t : TaskId} :
    taskState s t = .running ↔ tcrEn s.tcr[t] = true := by
  unfold taskState
  cases tcrEn s.tcr[t] <;> cases s.configured[t] <;> simp

/-- The rows of R96, on the bits: `TCFG` takes a task out of Unconfigured only. -/
theorem bitsState_configure (c : Prop) [Decidable c] (en cfg : Bool) :
    bitsState (en, if c then true else cfg) =
      if c ∧ bitsState (en, cfg) = .unconfigured then .stopped else bitsState (en, cfg) := by
  by_cases hc : c <;> cases en <;> cases cfg <;> simp [hc, bitsState]

/-- `TSTART` starts a Stopped task only. -/
theorem bitsState_start (c : Prop) [Decidable c] (en cfg : Bool) :
    bitsState (if c ∧ cfg = true then true else en, cfg) =
      if c ∧ bitsState (en, cfg) = .stopped then .running else bitsState (en, cfg) := by
  by_cases hc : c <;> cases en <;> cases cfg <;> simp [hc, bitsState]

/-- The auto-start chain runs its task whatever state it was in. -/
theorem bitsState_chain (c : Prop) [Decidable c] (en cfg : Bool) :
    bitsState (if c then true else en, cfg) = if c then .running else bitsState (en, cfg) := by
  by_cases hc : c <;> simp [hc, bitsState]

/-- `TSTOP` and `E_SELFDIS` take a task out of Running only. -/
theorem bitsState_stop (c : Prop) [Decidable c] (en cfg : Bool) :
    bitsState (if c then false else en, cfg) =
      if c ∧ bitsState (en, cfg) = .running then (if cfg then .stopped else .unconfigured)
      else bitsState (en, cfg) := by
  by_cases hc : c <;> cases en <;> cases cfg <;> simp [hc, bitsState]

theorem taskBits_setTcr (s : State) (u t : TaskId) (v : Half) :
    taskBits (s.setTcr u v) t = (if u = t then tcrEn v else tcrEn s.tcr[t], s.configured[t]) := by
  simp only [taskBits, State.setTcr_tcr, State.setTcr_configured, Fin.getElem_fin, Vector.getElem_set,
    Fin.ext_iff, apply_ite tcrEn]

theorem taskBits_setConfigured (s : State) (u t : TaskId) :
    taskBits (s.setConfigured u) t = (tcrEn s.tcr[t], if u = t then true else s.configured[t]) := by
  simp only [taskBits, State.setConfigured_tcr, State.setConfigured_configured, Fin.getElem_fin,
    Vector.getElem_set, Fin.ext_iff]

/-- A TCR write that keeps `EN` keeps the bits of every task. -/
theorem taskBits_setTcr_of_en {s : State} {u : TaskId} {v : Half} (h : tcrEn v = tcrEn s.tcr[u]) :
    taskBits (s.setTcr u v) = taskBits s := by
  funext t
  rw [taskBits_setTcr, taskBits]
  by_cases hut : u = t
  · rw [if_pos hut, h, hut]
  · rw [if_neg hut]

/-! ## The moves that keep the bits of every task -/

section
variable {s s' : State}

theorem taskBits_ite {c : Prop} [Decidable c] {a b : State} (ha : taskBits a = taskBits s)
    (hb : taskBits b = taskBits s) : taskBits (if c then a else b) = taskBits s := by
  split
  · exact ha
  · exact hb

theorem taskBits_withTask {t : Nat} {body : TaskId → State} (h : ∀ u, taskBits (body u) = taskBits s) :
    taskBits (withTask t s body) = taskBits s := by
  unfold withTask
  cases taskHandle t with
  | none => rfl
  | some u => exact h u

theorem taskBits_command {body : State → State} (h : command s body = .next s')
    (hbody : taskBits (body s) = taskBits s) : taskBits s' = taskBits s := by
  rcases command_next_iff.mp h with ⟨-, rfl⟩ | ⟨-, rfl⟩
  · rfl
  · exact hbody

theorem taskBits_ret (v : Word) : taskBits (s.ret v) = taskBits s :=
  rfl

theorem taskBits_allocRing (t : TaskId) (np : BitVec 2) (apiConfig : Byte)
    (baseSlot startSlot maxBD : Word) :
    taskBits (s.allocRing t np apiConfig baseSlot startSlot maxBD) = taskBits s := by
  rw [allocRing_eq]
  rfl

theorem taskBits_armRing (t : TaskId) (lastSlot status numBD : Word) :
    taskBits (s.armRing t lastSlot status numBD) = taskBits s := by
  rw [armRing_eq]
  rfl

/-- The commands that R96 does not name. -/
theorem taskBits_exec_kept {i : Instr} (h : exec i s = .next s') (htcfg : instrOp i ≠ .tcfg)
    (htstart : instrOp i ≠ .tstart) (htstop : instrOp i ≠ .tstop) : taskBits s' = taskBits s := by
  cases i with
  | tcfg => exact absurd rfl htcfg
  | tstart => exact absurd rfl htstart
  | tstop => exact absurd rfl htstop
  | apiinit =>
    rw [exec, execApiinit] at h
    exact taskBits_command h (taskBits_ite rfl rfl)
  | tstat =>
    rw [exec, execTstat] at h
    exact taskBits_command h (taskBits_withTask fun _ => rfl)
  | bdsetup =>
    rw [exec, execBdsetup] at h
    exact taskBits_command h (taskBits_withTask fun _ =>
      taskBits_ite rfl (taskBits_ite rfl (taskBits_ite rfl (taskBits_ite rfl (taskBits_ite
        (taskBits_ite rfl (taskBits_ite rfl
          ((taskBits_ret ..).trans ((taskBits_armRing ..).trans (taskBits_allocRing ..)))))
        (taskBits_ite rfl (taskBits_ite rfl ((taskBits_ret ..).trans (taskBits_armRing ..)))))))))
  | bdassign =>
    rw [exec, execBdassign] at h
    exact taskBits_command h (taskBits_withTask fun _ => taskBits_ite rfl (taskBits_ite rfl rfl))
  | bdrelease =>
    rw [exec, execBdrelease] at h
    exact taskBits_command h (taskBits_withTask fun _ => taskBits_ite rfl (taskBits_ite rfl rfl))
  | bdreset =>
    rw [exec, execBdreset] at h
    exact taskBits_command h (taskBits_withTask fun _ => taskBits_ite rfl rfl)
  | bdget t =>
    rw [exec, execBdget] at h
    refine taskBits_command h ?_
    cases taskHandle t with
    | none => rfl
    | some u => exact taskBits_ite rfl rfl
  | bdring t =>
    rw [exec, execBdring] at h
    refine taskBits_command h ?_
    cases taskHandle t with
    | none => rfl
    | some u => exact taskBits_ite rfl rfl
  | bdinuse =>
    rw [exec, execBdinuse] at h
    exact taskBits_command h (taskBits_withTask fun _ => rfl)
  | tseti =>
    rw [exec, execTseti] at h
    exact taskBits_command h (taskBits_withTask fun _ => taskBits_setTcr_of_en (tcrEn_tcrWithInit ..))
  | drdpatch =>
    rw [exec, execDrdpatch] at h
    exact taskBits_command h (taskBits_ite rfl (taskBits_ite rfl rfl))
  | szset =>
    rw [exec, execSzset] at h
    exact taskBits_command h (taskBits_withTask fun _ => rfl)
  | tintclr =>
    rw [exec, execTintclr] at h
    exact taskBits_command h (taskBits_ite rfl rfl)
  | tintstat =>
    rw [exec, execTintstat] at h
    exact taskBits_command h (taskBits_withTask fun _ =>
      taskBits_ite rfl (taskBits_ite rfl (taskBits_ite rfl rfl)))
  | tintpend =>
    rw [exec, execTintpend] at h
    exact taskBits_command h (taskBits_withTask fun _ => taskBits_ite rfl rfl)
  | tintsrc =>
    rw [exec, execTintsrc] at h
    refine taskBits_command h (taskBits_ite rfl ?_)
    cases highestTask (effectivePending s) 16 with
    | none => rfl
    | some t => rfl
  | ginit =>
    rw [exec, execGinit] at h
    exact taskBits_command h (taskBits_ite rfl rfl)
  | girqen =>
    rw [exec, execGirqen] at h
    exact taskBits_command h (taskBits_ite rfl rfl)
  | girqdis =>
    rw [exec, execGirqdis] at h
    exact taskBits_command h (taskBits_ite rfl rfl)
  | ginstall =>
    rw [exec, execGinstall] at h
    refine taskBits_command h ?_
    split <;> rfl
  | ghdone =>
    rw [exec, execGhdone] at h
    exact taskBits_command h (taskBits_ite rfl rfl)

theorem taskBits_demuxFire (h : demuxFire s = some s') : taskBits s' = taskBits s := by
  unfold demuxFire at h
  split at h
  · obtain rfl := Option.some.inj h
    rfl
  · cases h

theorem taskBits_demuxScan (h : demuxScan s = some s') : taskBits s' = taskBits s := by
  unfold demuxScan at h
  split at h
  · split at h
    · obtain rfl := Option.some.inj h
      rfl
    · split at h
      all_goals
        obtain rfl := Option.some.inj h
        rfl
  · cases h

theorem taskBits_demuxStep (h : demuxStep s = some s') : taskBits s' = taskBits s := by
  unfold demuxStep at h
  split at h
  · exact taskBits_demuxScan h
  · exact taskBits_demuxFire h

theorem taskBits_engineBdDone {t : TaskId} {status : Word} (h : engineBdDone t status s = some s') :
    taskBits s' = taskBits s := by
  unfold engineBdDone at h
  split at h
  · obtain rfl := Option.some.inj h
    rfl
  · cases h

/-! ## The moves that R96 names -/

section
variable {t : TaskId}

theorem taskBits_tcfg {g : Nat} {policy : Int} (h : exec (.tcfg g policy) s = .next s')
    (hlive : s.fatal = false) :
    taskBits s' t = (tcrEn s.tcr[t],
      if g % 16 = t.val ∧ (argReg s 0).toNat % 4 = 0 then true else s.configured[t]) := by
  by_cases hslot : (argReg s 0).toNat % 4 = 0
  · rw [exec_tcfg_configures hlive hslot] at h
    obtain rfl := Host.Outcome.next.inj h
    have hwrite : ∀ (c : State) (a v : Word),
        taskBits (if a = 0#32 then c else c.memWrite a v) = taskBits c :=
      fun c a v => taskBits_ite rfl rfl
    rw [taskBits_ret, taskBits_setTcr_of_en, hwrite, taskBits_setConfigured]
    · simp [globalTask, Fin.ext_iff, hslot]
    · rw [tcrEn_tcrWithAutoStart, apply_ite State.tcr, State.memWrite_tcr, ite_self]
      rfl
  · rw [exec_tcfg_refused hlive hslot] at h
    obtain rfl := Host.Outcome.next.inj h
    rw [if_neg fun hcfg => hslot hcfg.2]
    rfl

theorem taskBits_tstart {u ast : Nat} {ase ie : Bool} (h : exec (.tstart u ase ast ie) s = .next s')
    (hlive : s.fatal = false) :
    taskBits s' t =
      (if (u = t.val ∧ (ase = true → ast < 16)) ∧ s.configured[t] = true then true else tcrEn s.tcr[t],
        s.configured[t]) := by
  by_cases hu : u < 16
  · lift u to TaskId using hu
    by_cases hstart : (ase = true → ast < 16) ∧ s.configured[u] = true
    · obtain ⟨hast, hcfg⟩ := hstart
      rw [exec_tstart_starts hlive hast hcfg] at h
      obtain rfl := Host.Outcome.next.inj h
      calc taskBits ((((s.setMaskBit u.val ie).setTcr u _).setRunFlag u true).ret noErr) t
        _ = taskBits ((s.setMaskBit u.val ie).setTcr u _) t := rfl
        _ = (if u = t then true else tcrEn s.tcr[t], s.configured[t]) := by
          rw [taskBits_setTcr, tcrEn_startedTcr]
          rfl
        _ = _ := by
          by_cases hut : u = t
          · subst hut
            rw [if_pos rfl, if_pos ⟨⟨rfl, hast⟩, hcfg⟩]
          · simp [hut, Fin.val_ne_of_ne hut]
    · rw [exec_tstart_refused hlive (by
        rw [not_and_or, Bool.not_eq_true] at hstart
        exact hstart.imp_left (by simp))] at h
      obtain rfl := Host.Outcome.next.inj h
      rw [if_neg]
      · rfl
      · rintro ⟨⟨hut, hast⟩, hcfg⟩
        exact hstart ⟨hast, Fin.ext hut ▸ hcfg⟩
  · rw [exec, execTstart, command_withTask_refused hlive (Nat.le_of_not_lt hu)] at h
    obtain rfl := Host.Outcome.next.inj h
    rw [if_neg (by omega)]
    rfl

theorem taskBits_tstop {u : Nat} (h : exec (.tstop u) s = .next s') (hlive : s.fatal = false) :
    taskBits s' t = (if u = t.val then false else tcrEn s.tcr[t], s.configured[t]) := by
  by_cases hu : u < 16
  · lift u to TaskId using hu
    rw [exec, execTstop, command_withTask_handle hlive] at h
    obtain rfl := Host.Outcome.next.inj h
    calc taskBits (((s.setTcr u (tcrDisable s.tcr[u])).setRunFlag u false).ret noErr) t
      _ = taskBits (s.setTcr u (tcrDisable s.tcr[u])) t := rfl
      _ = _ := by rw [taskBits_setTcr, tcrEn_tcrDisable]; simp [Fin.ext_iff]
  · rw [exec, execTstop, command_withTask_refused hlive (Nat.le_of_not_lt hu)] at h
    obtain rfl := Host.Outcome.next.inj h
    rw [if_neg (by omega)]
    rfl

theorem taskBits_engineDone {u : TaskId} (h : engineDone u s = some s') :
    taskBits s' t = (if tcrEn s.tcr[u] = true ∧ tcrAse s.tcr[u] = true ∧
      (tcrAst s.tcr[u]).toNat = t.val then true else tcrEn s.tcr[t], s.configured[t]) := by
  have hrun : tcrEn s.tcr[u] = true :=
    (engineDone_isSome s u).symm.trans (congrArg Option.isSome h)
  cases hase : tcrAse s.tcr[u] with
  | true =>
    rw [engineDone_chained hrun hase rfl] at h
    obtain rfl := Option.some.inj h
    rw [taskBits_setTcr, tcrEn_tcrEnable]
    simp only [hrun, true_and, autoStartTask, Fin.ext_iff]
    rfl
  | false =>
    rw [engineDone_last hrun hase] at h
    obtain rfl := Option.some.inj h
    rw [if_neg fun ⟨_, hon, _⟩ => Bool.false_ne_true hon]
    rfl

theorem taskBits_engineSelfDis {u : TaskId} (h : engineSelfDis u s = some s') :
    taskBits s' t = (if u = t then false else tcrEn s.tcr[t], s.configured[t]) := by
  have hrun : tcrEn s.tcr[u] = true :=
    (engineSelfDis_isSome s u).symm.trans (congrArg Option.isSome h)
  rw [engineSelfDis_running hrun] at h
  obtain rfl := Option.some.inj h
  rw [taskBits_setTcr, tcrEn_tcrDisable]

theorem taskBits_resetInput : taskBits (resetInput s) t = (false, false) :=
  Prod.ext (congrArg tcrEn (resetWith_tcr s.cfg t.isLt)) (resetWith_configured s.cfg t.isLt)

end

end

/-! ## The table -/

section
variable {s s' : State} {m : Input} {t : TaskId}

/-- R96 for one move and one task: the state is the table's, and `CFG` is cleared by reset only. -/
def FollowsTable (s s' : State) (m : Input) (t : TaskId) : Prop :=
  taskState s' t = nextTaskState s t m ∧
    (s.configured[t] = true → s'.configured[t] = true ∨ m = .reset)

theorem followsTable_of_kept (h : taskBits s' = taskBits s)
    (hnext : nextTaskState s t m = taskState s t) : FollowsTable s s' m t := by
  have hcfg : s'.configured[t] = s.configured[t] := congrArg Prod.snd (congrFun h t)
  refine ⟨?_, fun hset => .inl (hcfg.trans hset)⟩
  rw [hnext, taskState_eq_bitsState, taskState_eq_bitsState, h]

theorem followsTable_of_bits {en cfg : Bool} (h : taskBits s' t = (en, cfg))
    (hcfg : s.configured[t] = true → cfg = true)
    (hnext : nextTaskState s t m = bitsState (en, cfg)) : FollowsTable s s' m t := by
  refine ⟨?_, fun hset => .inl ?_⟩
  · rw [hnext, taskState_eq_bitsState, h]
  · calc s'.configured[t]
      _ = cfg := congrArg Prod.snd h
      _ = true := hcfg hset

/-- A move of an agent whose precondition fails changes nothing (log 2). -/
theorem followsTable_of_option {next : Option State}
    (h : ∀ s', next = some s' → FollowsTable s s' m t)
    (hnone : next = none → nextTaskState s t m = taskState s t) :
    FollowsTable s (next.getD s) m t := by
  cases hnext : next with
  | none => exact followsTable_of_kept rfl (hnone hnext)
  | some s' => exact h s' hnext

/-- The commands, under their decoded words: the rows of R96 for `TCFG`, `TSTART` and `TSTOP`. -/
theorem followsTable_exec {w : Word} {i : Instr} (h : exec i s = .next s') (hlive : s.fatal = false)
    (hdecode : decode w = .ok i) : FollowsTable s s' (.cmd w) t := by
  cases i with
  | tcfg g policy =>
    refine followsTable_of_bits (taskBits_tcfg h hlive) (fun hset => by rw [hset, ite_self]) ?_
    rw [bitsState_configure]
    simp [nextTaskState, hlive, hdecode, taskState_eq_bitsState, taskBits, and_assoc]
  | tstart u ase ast ie =>
    refine followsTable_of_bits (taskBits_tstart h hlive) id ?_
    rw [bitsState_start]
    simp [nextTaskState, hlive, hdecode, taskState_eq_bitsState, taskBits, and_assoc]
  | tstop u =>
    refine followsTable_of_bits (taskBits_tstop h hlive) id ?_
    rw [bitsState_stop]
    simp [nextTaskState, hlive, hdecode, taskState_eq_bitsState, taskBits]
  | _ =>
    refine followsTable_of_kept (taskBits_exec_kept h nofun nofun nofun) ?_
    simp [nextTaskState, hlive, hdecode]

theorem followsTable_writeCmd {w : Word} (h : writeCmd w s = .next s') :
    FollowsTable s s' (.cmd w) t := by
  unfold writeCmd at h
  split at h
  · next hfatal =>
    obtain rfl := Host.Outcome.next.inj h
    exact followsTable_of_kept rfl (by simp [nextTaskState, hfatal])
  · next hlive =>
    rw [Bool.not_eq_true] at hlive
    cases hdecode : decode w with
    | error e =>
      rw [runWord_error hdecode] at h
      obtain rfl := Host.Outcome.next.inj h
      exact followsTable_of_kept rfl (by simp [nextTaskState, hlive, hdecode])
    | ok i =>
      rw [runWord, hdecode] at h
      exact followsTable_exec (s := { s with cmd := w }) h hlive hdecode

/-- The engine's moves: the rows of R96 for `E_DONE` and `E_SELFDIS`. -/
theorem followsTable_engine (e : EngineEvent) :
    FollowsTable s ((engineMove e s).getD s) (.engine e) t := by
  cases e with
  | done u =>
    refine followsTable_of_option (fun s' h => ?_) fun hnone => ?_
    · refine followsTable_of_bits (taskBits_engineDone h) id ?_
      rw [bitsState_chain]
      simp [nextTaskState, taskState_eq_bitsState, taskBits]
    · have hoff : tcrEn s.tcr[u] = false :=
        (engineDone_isSome s u).symm.trans (congrArg Option.isSome hnone)
      exact if_neg fun ⟨hon, _⟩ => Bool.false_ne_true (hoff.symm.trans hon)
  | selfDis u =>
    refine followsTable_of_option (fun s' h => ?_) fun hnone => ?_
    · refine followsTable_of_bits (taskBits_engineSelfDis h) id ?_
      rw [bitsState_stop]
      simp [nextTaskState, taskState_eq_bitsState, taskBits]
    · have hoff : tcrEn s.tcr[u] = false :=
        (engineSelfDis_isSome s u).symm.trans (congrArg Option.isSome hnone)
      refine if_neg ?_
      rintro ⟨rfl, hrunning⟩
      exact Bool.false_ne_true (hoff.symm.trans (taskState_running_iff.mp hrunning))
  | bdDone u status =>
    exact followsTable_of_option (fun s' h => followsTable_of_kept (taskBits_engineBdDone h) rfl)
      fun _ => rfl
  | int u => exact followsTable_of_kept rfl rfl
  | tea u => exact followsTable_of_kept rfl rfl
  | dbg => exact followsTable_of_kept rfl rfl

theorem followsTable_applyInput (h : applyInput m s = .next s') : FollowsTable s s' m t := by
  cases m with
  | cmd w => exact followsTable_writeCmd h
  | arg n v =>
    obtain rfl := Host.Outcome.next.inj h
    exact followsTable_of_kept rfl rfl
  | prio i b =>
    obtain rfl := Host.Outcome.next.inj h
    exact followsTable_of_kept rfl rfl
  | engine e =>
    obtain rfl := Host.Outcome.next.inj h
    exact followsTable_engine e
  | demux =>
    obtain rfl := Host.Outcome.next.inj h
    exact followsTable_of_option (fun s' h => followsTable_of_kept (taskBits_demuxStep h) rfl)
      fun _ => rfl
  | reset =>
    obtain rfl := Host.Outcome.next.inj h
    exact ⟨(taskState_eq_bitsState _ t).trans (congrArg bitsState taskBits_resetInput), fun _ => .inr rfl⟩
  | storeWord a v =>
    obtain ⟨-, rfl⟩ := storeWord_next_iff.mp h
    exact followsTable_of_kept rfl rfl
  | storeByte a b =>
    obtain ⟨-, rfl⟩ := storeByte_next_iff.mp h
    exact followsTable_of_kept rfl rfl

end

/-- Settles O17: every move follows the table (`followsTable_applyInput`), and a step is one move. -/
theorem taskStatesFollowTheTable : Obligations.TaskStatesFollowTheTable := by
  unfold Obligations.TaskStatesFollowTheTable
  intro s s' m rest t hinputs hstep
  rw [step_cons hinputs] at hstep
  exact followsTable_applyInput (s := { s with inputs := rest }) hstep

end Sys2Proof.Proofs
end

section
/-! PROOF. The commands on a live BD ring (`41_bd_ring.md` R107, R111, R118 to R120): `BDASSIGN`,
`BDRELEASE` and the accessors with `FATAL` = 0. -/

namespace Sys2Proof.Proofs

open Sys2Proof.Machine

/-! ## The words of one BD -/

/-- Two words share no byte when each starts at least 4 bytes above the other, modulo 2^32. -/
theorem words_apart {a b : Word} (hab : 4 ≤ (b - a).toNat) (hba : 4 ≤ (a - b).toNat) :
    ∀ y, inBytes b 4 y → ¬inBytes a 4 y := by
  unfold inBytes
  bv_omega

section
variable {e : RingEntry} {i : Nat} {buf0 buf1 status : Word} {m : Memory}

/-- R107, R108 (b): two pointers, then the status. -/
theorem assignBd_two (h : e.numPtr = 2#2) : assignBd e i buf0 buf1 status m =
    ((m.writeWord (bdAddr e i + 4#32) buf0).writeWord (bdAddr e i + 8#32) buf1).writeWord (bdAddr e i)
      status := by
  rw [assignBd, if_pos h]

/-- R107, R108 (b): one pointer, then the status. -/
theorem assignBd_one (h : e.numPtr ≠ 2#2) : assignBd e i buf0 buf1 status m =
    (m.writeWord (bdAddr e i + 4#32) buf0).writeWord (bdAddr e i) status := by
  rw [assignBd, if_neg h]

theorem readWord_assignBd_status :
    (assignBd e i buf0 buf1 status m).readWord (bdAddr e i) = status :=
  Memory.readWord_writeWord_same ..

theorem readWord_assignBd_buf0 :
    (assignBd e i buf0 buf1 status m).readWord (bdAddr e i + 4#32) = buf0 := by
  have hstatus := words_apart (a := bdAddr e i) (b := bdAddr e i + 4#32) (by bv_omega) (by bv_omega)
  have hbuf1 := words_apart (a := bdAddr e i + 8#32) (b := bdAddr e i + 4#32) (by bv_omega)
    (by bv_omega)
  by_cases hptr : e.numPtr = 2#2
  · rw [assignBd_two hptr, Memory.readWord_writeWord_other _ _ hstatus,
      Memory.readWord_writeWord_other _ _ hbuf1, Memory.readWord_writeWord_same]
  · rw [assignBd_one hptr, Memory.readWord_writeWord_other _ _ hstatus,
      Memory.readWord_writeWord_same]

theorem readWord_assignBd_buf1 (hptr : e.numPtr = 2#2) :
    (assignBd e i buf0 buf1 status m).readWord (bdAddr e i + 8#32) = buf1 := by
  have hstatus := words_apart (a := bdAddr e i) (b := bdAddr e i + 8#32) (by bv_omega) (by bv_omega)
  rw [assignBd_two hptr, Memory.readWord_writeWord_other _ _ hstatus, Memory.readWord_writeWord_same]

/-- A word at offset `k` of a block of `n` bytes lies inside it. -/
theorem not_inBytes_word {a x : Word} {n k : Nat} (h : ¬inBytes a n x) (hk : k + 4 ≤ n)
    (hn : n ≤ 2 ^ 32) : ¬inBytes (a + BitVec.ofNat 32 k) 4 x := by
  unfold inBytes at h ⊢
  bv_omega

theorem readByte_assignBd_other {x : Word}
    (h : ¬inBytes (bdAddr e i) (if e.numPtr = 2#2 then 12 else 8) x) :
    (assignBd e i buf0 buf1 status m).readByte x = m.readByte x := by
  have hstatus : ¬inBytes (bdAddr e i) 4 x := fun hx => h (by unfold inBytes at hx ⊢; split <;> omega)
  by_cases hptr : e.numPtr = 2#2
  · rw [if_pos hptr] at h
    rw [assignBd_two hptr, Memory.readByte_writeWord_other _ _ hstatus,
      Memory.readByte_writeWord_other _ _ (not_inBytes_word (k := 8) h (by decide) (by decide)),
      Memory.readByte_writeWord_other _ _ (not_inBytes_word (k := 4) h (by decide) (by decide))]
  · rw [if_neg hptr] at h
    rw [assignBd_one hptr, Memory.readByte_writeWord_other _ _ hstatus,
      Memory.readByte_writeWord_other _ _ (not_inBytes_word (k := 4) h (by decide) (by decide))]

end

/-! ## `BDASSIGN` -/

section
variable {s : State} {t : TaskId}

theorem exec_bdassign_refused {n : Nat} (hlive : s.fatal = false) (hn : 16 ≤ n) :
    exec (.bdassign n) s = .next (s.ret invalidArg) := by
  rw [exec, execBdassign, command_withTask_refused hlive hn]

theorem exec_bdassign_full (hlive : s.fatal = false) (hfull : s.rt[t].inUse = s.rt[t].numBD) :
    exec (.bdassign t.val) s = .next (s.ret bdRingFull) := by
  rw [exec, execBdassign, command_withTask_handle hlive]
  exact congrArg _ (if_pos hfull)

theorem exec_bdassign_oversize (hlive : s.fatal = false) (hroom : s.rt[t].inUse ≠ s.rt[t].numBD)
    (hsize : bdLenMask.toNat < (argReg s 2).toNat) :
    exec (.bdassign t.val) s = .next (s.ret sizeTooLarge) := by
  rw [exec, execBdassign, command_withTask_handle hlive]
  exact congrArg _ ((if_neg hroom).trans (if_pos hsize))

theorem exec_bdassign_fills (hlive : s.fatal = false) (hroom : s.rt[t].inUse ≠ s.rt[t].numBD)
    (hsize : (argReg s 2).toNat ≤ bdLenMask.toNat) :
    exec (.bdassign t.val) s = .next { s with
      rt := s.rt.set t { s.rt[t] with
        wr := cursorNext s.rt[t].wr s.rt[t].numBD, inUse := s.rt[t].inUse + 1#16 }
      mem := assignBd s.rt[t] s.rt[t].wr.toNat (argReg s 0) (argReg s 1)
        (assignedStatus (argReg s 2) (argReg s 3)) s.mem
      res := s.rt[t].wr.setWidth 32 } := by
  rw [exec, execBdassign, command_withTask_handle hlive]
  exact congrArg _ ((if_neg hroom).trans (if_neg (Nat.not_lt_of_le hsize)))

end

/-- Settles O27: the memory left is `assignBd` at the write cursor, whose words and frame are the
`assignBd` lemmas above. -/
theorem bdassignFillsTheNextBd : Obligations.BdassignFillsTheNextBd := by
  unfold Obligations.BdassignFillsTheNextBd
  refine fun s hlive => ⟨fun n hn => exec_bdassign_refused hlive hn, fun t => ⟨?_, ?_, ?_⟩⟩
  · exact exec_bdassign_full hlive
  · exact exec_bdassign_oversize hlive
  · intro hroom hsize
    exact ⟨_, exec_bdassign_fills hlive hroom hsize, readWord_assignBd_status, readWord_assignBd_buf0,
      readWord_assignBd_buf1, fun _ => readByte_assignBd_other⟩

/-! ## `BDRELEASE` -/

section
variable {s : State} {t : TaskId}

theorem exec_bdrelease_refused {n : Nat} (hlive : s.fatal = false) (hn : 16 ≤ n) :
    exec (.bdrelease n) s = .next (s.ret invalidArg) := by
  rw [exec, execBdrelease, command_withTask_refused hlive hn]

theorem exec_bdrelease_empty (hlive : s.fatal = false) (hempty : s.rt[t].inUse = 0#16) :
    exec (.bdrelease t.val) s = .next (s.ret bdRingEmpty) := by
  rw [exec, execBdrelease, command_withTask_handle hlive]
  exact congrArg _ (if_pos hempty)

theorem exec_bdrelease_busy (hlive : s.fatal = false) (hsome : s.rt[t].inUse ≠ 0#16)
    (hready : bdReady (s.memRead (bdAddr s.rt[t] s.rt[t].rd.toNat)) = true) :
    exec (.bdrelease t.val) s = .next (s.ret bdBusy) := by
  rw [exec, execBdrelease, command_withTask_handle hlive]
  exact congrArg _ ((if_neg hsome).trans (if_pos hready))

theorem exec_bdrelease_releases (hlive : s.fatal = false) (hsome : s.rt[t].inUse ≠ 0#16)
    (hdone : bdReady (s.memRead (bdAddr s.rt[t] s.rt[t].rd.toNat)) = false) :
    exec (.bdrelease t.val) s = .next { s with
      rt := s.rt.set t { s.rt[t] with
        rd := cursorNext s.rt[t].rd s.rt[t].numBD, inUse := s.rt[t].inUse - 1#16 }
      ret1 := s.memRead (bdAddr s.rt[t] s.rt[t].rd.toNat)
      res := s.rt[t].rd.setWidth 32 } := by
  rw [exec, execBdrelease, command_withTask_handle hlive]
  exact congrArg _ ((if_neg hsome).trans (if_neg (Bool.eq_false_iff.mp hdone)))

end

/-- Settles O28: the case lemmas of `BDRELEASE`, empty before busy; none of them writes memory. -/
theorem bdreleaseReturnsTheOldestBd : Obligations.BdreleaseReturnsTheOldestBd := by
  unfold Obligations.BdreleaseReturnsTheOldestBd
  refine fun s hlive => ⟨fun n hn => exec_bdrelease_refused hlive hn, fun t => ⟨?_, ?_, ?_⟩⟩
  · exact exec_bdrelease_empty hlive
  · exact exec_bdrelease_busy hlive
  · exact exec_bdrelease_releases hlive

/-! ## The accessors -/

section
variable {s : State}

theorem exec_bdget_refused {t : Nat} (idx : Nat) (hlive : s.fatal = false) (ht : 16 ≤ t) :
    exec (.bdget t idx) s = .next (s.ret nullSentinel) := by
  rw [exec, execBdget, command_live hlive, taskHandle_ge ht]

theorem exec_bdring_refused {t : Nat} (hlive : s.fatal = false) (ht : 16 ≤ t) :
    exec (.bdring t) s = .next (s.ret nullSentinel) := by
  rw [exec, execBdring, command_live hlive, taskHandle_ge ht]

theorem exec_bdinuse_refused {t : Nat} (hlive : s.fatal = false) (ht : 16 ≤ t) :
    exec (.bdinuse t) s = .next (s.ret invalidArg) := by
  rw [exec, execBdinuse, command_withTask_refused hlive ht]

theorem exec_bdget (t : TaskId) (idx : Nat) (hlive : s.fatal = false) :
    exec (.bdget t.val idx) s = .next (s.ret
      (if s.rt[t].base = 0#32 ∨ s.rt[t].numBD.toNat ≤ idx then nullSentinel
        else bdAddr s.rt[t] idx)) := by
  rw [exec, execBdget, command_live hlive, taskHandle_lt t.isLt, apply_ite s.ret]

/-- R119: a ring that is not set up has the base 0, which is the null sentinel. -/
theorem exec_bdring (t : TaskId) (hlive : s.fatal = false) :
    exec (.bdring t.val) s = .next (s.ret s.rt[t].base) := by
  rw [exec, execBdring, command_live hlive, taskHandle_lt t.isLt]
  by_cases hbase : s.rt[t].base = 0#32
  · exact congrArg _ ((if_pos hbase).trans (congrArg s.ret hbase.symm))
  · exact congrArg _ (if_neg hbase)

theorem exec_bdinuse (t : TaskId) (hlive : s.fatal = false) :
    exec (.bdinuse t.val) s = .next (s.ret (BitVec.ofNat 32 s.rt[t].inUse.toNat)) := by
  rw [exec, execBdinuse, command_withTask_handle hlive, BitVec.ofNat_toNat]

end

/-- Settles O30: every case of the three accessors ends in `State.ret`, which writes `RES` alone. -/
theorem ringAccessorsOnlyWriteRes : Obligations.RingAccessorsOnlyWriteRes := by
  unfold Obligations.RingAccessorsOnlyWriteRes
  refine fun s hlive => ⟨fun t idx ht => exec_bdget_refused idx hlive ht,
    fun t ht => exec_bdring_refused hlive ht, fun t ht => exec_bdinuse_refused hlive ht,
    fun t => ⟨fun idx => ?_, ?_, ?_⟩⟩
  · exact exec_bdget t idx hlive
  · exact exec_bdring t hlive
  · exact exec_bdinuse t hlive

end Sys2Proof.Proofs
end

section
/-! PROOF. The TCR configurator (`42_tcr_config.md` R130 to R145): the bits `TCFG` and `TSETI` leave in a
TCR, the nibble `SZSET` writes, and the words the patch pass of `DRDPATCH` changes. -/

namespace Sys2Proof.Proofs

open Sys2Proof.Machine

/-! ## The patch pass -/

/-- The word `w` is patched: it is no continuation and its initiator is not "always" (R141 b, d). -/
def drdPatched (continuation : Bool) (w : Word) : Bool :=
  !continuation && decide (drdInit w ≠ initAlways)

/-- One word of the walk: the mark it hands on, whether it counts, and what it leaves in memory. -/
theorem drdWalk_cons (x : BitVec 5) (a : Word) (as : List Word) (p : Bool) (n : Nat) (m : Memory) :
    drdWalk x (a :: as) p n m =
      drdWalk x as (!p && drdExt (m.readWord a))
        (n + if drdPatched p (m.readWord a) then 1 else 0)
        (if drdPatched p (m.readWord a) then m.writeWord a (drdWithInit x (m.readWord a)) else m) := by
  rw [drdWalk]
  cases p with
  | true => rfl
  | false =>
    by_cases halways : drdInit (m.readWord a) = initAlways <;> simp [drdPatched, halways]

/-- The walk leaves a word that shares no byte with the listed ones alone. -/
theorem readWord_drdWalk_other (x : BitVec 5) {as : List Word} (p : Bool) (n : Nat) (m : Memory)
    {a : Word} (h : ∀ b ∈ as, ∀ y, inBytes a 4 y → ¬inBytes b 4 y) :
    (drdWalk x as p n m).2.readWord a = m.readWord a :=
  Memory.readWord_congr fun y hy => readByte_drdWalk_other x as p n m fun b hb => h b hb y hy

/-- A list of `k` distinct aligned words at `a`, which hold `w` in `m`; `c` marks the continuations
(R141 b). -/
structure DrdList (k : Nat) (a w : Nat → Word) (c : Nat → Bool) (m : Memory) : Prop where
  aligned : ∀ i < k, (a i).toNat % 4 = 0
  distinct : ∀ i < k, ∀ j < i, a i ≠ a j
  holds : ∀ i < k, m.readWord (a i) = w i
  mark : ∀ i, c (i + 1) = (!c i && drdExt (w i))

section
variable {k : Nat} {a w : Nat → Word} {c : Nat → Bool} {m : Memory}

/-- Later words share no byte with the first one. -/
theorem DrdList.apart (h : DrdList (k + 1) a w c m) {i : Nat} (hi : i < k) :
    ∀ y, inBytes (a (i + 1)) 4 y → ¬inBytes (a 0) 4 y :=
  aligned_words_apart (h.aligned 0 (by omega)) (h.aligned (i + 1) (by omega))
    (h.distinct (i + 1) (by omega) 0 (by omega))

/-- Writing the first word, or not, leaves the list of the others as it was. -/
theorem DrdList.tail (h : DrdList (k + 1) a w c m) (patch : Bool) (v : Word) :
    DrdList k (fun i => a (i + 1)) (fun i => w (i + 1)) (fun i => c (i + 1))
      (if patch then m.writeWord (a 0) v else m) where
  aligned i hi := h.aligned (i + 1) (by omega)
  distinct i hi j hj := h.distinct (i + 1) (by omega) (j + 1) (by omega)
  holds i hi := by
    cases patch with
    | true => exact (m.readWord_writeWord_other v (h.apart hi)).trans (h.holds (i + 1) (by omega))
    | false => exact h.holds (i + 1) (by omega)
  mark i := h.mark (i + 1)

/-- The walk over a list of distinct words: its first step, in the words the list holds. -/
theorem DrdList.walk_succ (h : DrdList (k + 1) a w c m) (x : BitVec 5) (n : Nat) :
    drdWalk x ((List.range (k + 1)).map a) (c 0) n m =
      drdWalk x ((List.range k).map fun i => a (i + 1)) (c 1)
        (n + if drdPatched (c 0) (w 0) then 1 else 0)
        (if drdPatched (c 0) (w 0) then m.writeWord (a 0) (drdWithInit x (w 0)) else m) := by
  rw [List.range_succ_eq_map, List.map_cons, List.map_map, drdWalk_cons, h.holds 0 (by omega),
    h.mark 0]
  rfl

/-- R141 e: the walk counts the words it patches. -/
theorem DrdList.count_walk (h : DrdList k a w c m) (x : BitVec 5) (n : Nat) :
    (drdWalk x ((List.range k).map a) (c 0) n m).1 =
      n + (List.range k).countP fun i => drdPatched (c i) (w i) := by
  induction k generalizing a w c m n with
  | zero => rfl
  | succ k ih =>
    rw [h.walk_succ, ih (h.tail _ _), List.range_succ_eq_map, List.countP_cons, List.countP_map,
      Nat.add_assoc, Nat.add_comm (List.countP ..)]
    rfl

/-- R142: what each word of the list holds after the walk. -/
theorem DrdList.readWord_walk (h : DrdList k a w c m) (x : BitVec 5) (n : Nat) {i : Nat} (hi : i < k) :
    (drdWalk x ((List.range k).map a) (c 0) n m).2.readWord (a i) =
      if drdPatched (c i) (w i) then drdWithInit x (w i) else w i := by
  induction k generalizing a w c m n i with
  | zero => omega
  | succ k ih =>
    rw [h.walk_succ]
    cases i with
    | succ i => exact ih (h.tail _ _) _ (by omega)
    | zero =>
      rw [readWord_drdWalk_other]
      · cases drdPatched (c 0) (w 0) with
        | true => exact Memory.readWord_writeWord_same _ _ _
        | false => exact h.holds 0 (by omega)
      · simp only [List.mem_map, List.mem_range]
        rintro _ ⟨j, hj, rfl⟩ y hy hy'
        exact h.apart hj y hy' hy

end

/-! ## `DRDPATCH` -/

/-- The patch pass `DRDPATCH` makes over its list (R140). -/
def patchPass (x : BitVec 5) (s : State) : Nat × Memory :=
  drdWalk x ((List.range (argReg s 1).toNat).map (drdEntry s)) false 0 s.mem

theorem exec_drdpatch_patches {x : BitVec 5} {s : State} (hlive : s.fatal = false)
    (hlist : (argReg s 0).toNat % 4 = 0) (hcount : (argReg s 1).toNat ≤ 0xFFFF)
    (hentries : ∀ i < (argReg s 1).toNat, (drdEntry s i).toNat % 4 = 0) :
    exec (.drdpatch x) s = .next { s with
      mem := (patchPass x s).2, ret1 := BitVec.ofNat 32 (patchPass x s).1, res := noErr } := by
  have hall : (drdAddresses s.mem (argReg s 0) (argReg s 1).toNat).all aligned = true := by
    simp only [drdAddresses, List.all_map, List.all_eq_true, List.mem_range, Function.comp_apply,
      aligned_iff]
    exact hentries
  rw [exec, execDrdpatch, command_live hlive]
  refine congrArg _ ((if_neg ?_).trans (if_neg (by simp [hall])))
  rw [aligned_iff.mpr hlist]
  simpa using hcount

theorem drdInit_drdWithInit (x : BitVec 5) (w : Word) : drdInit (drdWithInit x w) = x := by
  refine BitVec.eq_of_getLsbD_eq fun k hk => ?_
  rw [drdInit, BitVec.getLsbD_extractLsb', drdWithInit_getLsbD x w (by omega), if_pos (by omega)]
  simp [hk]

/-- Settles O38: the listed words are a `DrdList`, so the walk patches and counts as its lemmas say. -/
theorem drdpatchPatchesExactlyTheInitiators : Obligations.DrdpatchPatchesExactlyTheInitiators := by
  unfold Obligations.DrdpatchPatchesExactlyTheInitiators
  intro x s c hlive hlist hcount hentries hdistinct hfirst hmark patched
  have hdrds : DrdList (argReg s 1).toNat (drdEntry s) (fun i => s.memRead (drdEntry s i)) c s.mem :=
    ⟨hentries, hdistinct, fun _ _ => rfl, hmark⟩
  have hpass : patchPass x s =
      drdWalk x ((List.range (argReg s 1).toNat).map (drdEntry s)) (c 0) 0 s.mem := by
    rw [hfirst, patchPass]
  refine ⟨_, exec_drdpatch_patches hlive hlist hcount hentries, ?_, fun i hi => ?_⟩
  · refine congrArg (BitVec.ofNat 32) ?_
    rw [hpass, hdrds.count_walk, Nat.zero_add, List.countP_eq_length_filter]
    rfl
  · have hword : (patchPass x s).2.readWord (drdEntry s i) =
        if patched i then drdWithInit x (s.memRead (drdEntry s i)) else s.memRead (drdEntry s i) := by
      rw [hpass]
      exact hdrds.readWord_walk x 0 hi
    by_cases hpatched : patched i = true
    · rw [if_pos hpatched] at hword ⊢
      rw [State.memRead, hword]
      refine ⟨drdInit_drdWithInit x _, fun k hk hkept => ?_⟩
      rw [drdWithInit_getLsbD x _ hk, if_neg (by omega)]
    · rw [if_neg hpatched] at hword ⊢
      exact hword

/-! ## `TCFG` -/

/-- R130's policy decode in two ranges: where `ASE` is set, and where `AST` is the policy itself. -/
theorem policyFields_eq (t : TaskId) (p : Int) :
    policyFields t p =
      (decide (-1 ≤ p ∧ p < 16), BitVec.ofNat 4 (if 0 ≤ p ∧ p < 16 then p.toNat else t.val)) := by
  rw [policyFields]
  by_cases hbelow : p ≤ -2
  · rw [if_pos hbelow, decide_eq_false (by omega), if_neg (by omega)]
  by_cases hself : p = -1
  · rw [if_neg hbelow, if_pos hself, decide_eq_true (by omega), if_neg (by omega)]
  by_cases hnext : 0 ≤ p ∧ p < 16
  · rw [if_neg hbelow, if_neg hself, if_pos hnext, decide_eq_true (by omega), if_pos hnext]
  · rw [if_neg hbelow, if_neg hself, if_neg hnext, decide_eq_false (by omega), if_neg hnext]

/-- The TCR word `TCFG` leaves, bit by bit. -/
theorem configuredTcr_getLsbD (t : TaskId) (p : Int) (v : Half) {k : Nat} (hk : k < 16) :
    (tcrWithAutoStart (policyFields t p).1 (policyFields t p).2 v).getLsbD k =
      if k = 7 then decide (-1 ≤ p ∧ p < 16)
      else if k < 4 then (if 0 ≤ p ∧ p < 16 then p.toNat else t.val).testBit k
      else v.getLsbD k := by
  rw [tcrWithAutoStart_getLsbD _ _ _ hk, policyFields_eq, BitVec.getLsbD_ofNat]
  by_cases hast : k < 4 <;> simp [hast]

/-- Settles O34: the memory `TCFG` leaves is `s.mem` without an enable slot and one word write with
one. -/
theorem tcfgConfiguresTheTask : Obligations.TcfgConfiguresTheTask := by
  unfold Obligations.TcfgConfiguresTheTask
  refine fun g p s hlive => ⟨exec_tcfg_refused hlive, fun t hslot ht => ?_⟩
  have hglobal : globalTask g = t := Fin.ext ht.symm
  refine ⟨tcrWithAutoStart (policyFields t p).1 (policyFields t p).2 s.tcr[t],
    if argReg s 0 = 0#32 then s.mem else s.mem.writeWord (argReg s 0) (dev s (addrTcr s t)), ?_,
    fun k hk => configuredTcr_getLsbD t p s.tcr[t] hk, fun hnone => if_pos hnone, fun hsome => ?_⟩
  · rw [exec_tcfg_configures hlive hslot]
    simp only [hglobal]
    by_cases hnone : argReg s 0 = 0#32
    · rw [if_pos hnone, if_pos hnone]
      rfl
    · rw [if_neg hnone, if_neg hnone]
      simp only [State.memWrite, State.setConfigured_mem, State.setRunFlag_mem]
      rfl
  · rw [if_neg hsome]
    exact ⟨Memory.readWord_writeWord_same _ _ _, fun _ => Memory.readByte_writeWord_other _ _⟩

/-! ## `TSETI` -/

/-- Settles O35: the TCR word left is `tcrWithInit`, which writes bits 12:8 and 5 alone. -/
theorem tsetiWritesInitiatorAndHold : Obligations.TsetiWritesInitiatorAndHold := by
  unfold Obligations.TsetiWritesInitiatorAndHold
  refine fun init hold s hlive => ⟨fun t => ⟨tcrWithInit init hold s.tcr[t], ?_, fun k hk => ?_⟩,
    fun t ht => ?_⟩
  · rw [exec, execTseti, command_withTask_handle hlive]
    rfl
  · simpa only [Nat.lt_succ_iff] using tcrWithInit_getLsbD init hold s.tcr[t] hk
  · rw [exec, execTseti, command_withTask_refused hlive ht]
    rfl

/-! ## `SZSET` -/

theorem toNat_append_eq_add {m n : Nat} (hi : BitVec m) (lo : BitVec n) :
    (hi ++ lo).toNat = hi.toNat * 2 ^ n + lo.toNat := by
  rw [BitVec.toNat_append, ← Nat.shiftLeft_add_eq_or_of_lt lo.isLt, Nat.shiftLeft_eq]

/-- The even task of a pair has the high nibble (R19). -/
theorem szWithCodes_even (src dst : BitVec 2) (v : Byte) :
    szWithCodes false src dst v = (src ++ dst) ++ v.extractLsb' 0 4 := by
  refine BitVec.eq_of_getLsbD_eq fun k hk => ?_
  simp only [szWithCodes, Bool.false_eq_true, if_false, BitVec.getLsbD_or, BitVec.getLsbD_and,
    BitVec.getLsbD_shiftLeft, BitVec.getLsbD_setWidth, BitVec.getLsbD_append,
    BitVec.getLsbD_extractLsb']
  interval_cases k <;> simp

/-- The odd task of a pair has the low nibble (R19). -/
theorem szWithCodes_odd (src dst : BitVec 2) (v : Byte) :
    szWithCodes true src dst v = v.extractLsb' 4 4 ++ (src ++ dst) := by
  refine BitVec.eq_of_getLsbD_eq fun k hk => ?_
  simp only [szWithCodes, if_true, BitVec.getLsbD_or, BitVec.getLsbD_and, BitVec.getLsbD_setWidth,
    BitVec.getLsbD_append, BitVec.getLsbD_extractLsb']
  interval_cases k <;> simp

/-- The byte `SZSET` leaves, as a number. -/
theorem toNat_szWithCodes (t : TaskId) (src dst : BitVec 2) (v : Byte) :
    (szWithCodes (decide (t.val % 2 = 1)) src dst v).toNat =
      if t.val % 2 = 0 then (4 * src.toNat + dst.toNat) * 16 + v.toNat % 16
      else v.toNat / 16 * 16 + (4 * src.toNat + dst.toNat) := by
  have hcodes : (src ++ dst).toNat = 4 * src.toNat + dst.toNat := by
    rw [toNat_append_eq_add, Nat.mul_comm]
    rfl
  rcases Nat.mod_two_eq_zero_or_one t.val with heven | hodd
  · rw [if_pos heven, heven, decide_eq_false (by decide), szWithCodes_even, toNat_append_eq_add,
      hcodes, BitVec.extractLsb'_toNat, Nat.shiftRight_zero]
    rfl
  · have hhigh : v.toNat / 16 % 16 = v.toNat / 16 := Nat.mod_eq_of_lt (by omega)
    rw [if_neg (by omega), decide_eq_true hodd, szWithCodes_odd, toNat_append_eq_add, hcodes,
      BitVec.extractLsb'_toNat, Nat.shiftRight_eq_div_pow]
    exact congrArg (fun high => high * 16 + _) hhigh

/-- Settles O36: the byte left is `szWithCodes` of the task's half. -/
theorem szsetWritesOneNibble : Obligations.SzsetWritesOneNibble := by
  unfold Obligations.SzsetWritesOneNibble
  refine fun src dst s hlive => ⟨fun t k hk => ?_, fun t ht => ?_⟩
  · obtain rfl : szIndex t = k := Fin.ext hk.symm
    refine ⟨_, ?_, toNat_szWithCodes t src dst s.sz[szIndex t]⟩
    rw [exec, execSzset, command_withTask_handle hlive]
    rfl
  · rw [exec, execSzset, command_withTask_refused hlive ht]
    rfl

end Sys2Proof.Proofs
end

section
/-! PROOF. The interrupt queries and the glue (`43_interrupt_ops.md` R160 to R176): what each command
leaves with `FATAL` = 0, bit by bit for `IPR` and `IMR`. -/

namespace Sys2Proof.Proofs

open Sys2Proof.Machine

/-! ## Commands with a source operand -/

theorem command_withSource_source {s : State} {body : State → State} {i : Nat} (hlive : s.fatal = false)
    (hi : SourceNumber i) : command s (fun s => withSource i s (body s)) = .next (body s) := by
  rw [command_live hlive, withSource_source _ _ (isSource_iff.mpr hi)]

theorem command_withSource_refused {s : State} {body : State → State} {i : Nat} (hlive : s.fatal = false)
    (hi : ¬SourceNumber i) :
    command s (fun s => withSource i s (body s)) = .next (s.ret invalidArg) := by
  rw [command_live hlive, withSource_other _ _ (Bool.eq_false_iff.mpr (mt isSource_iff.mp hi))]

/-! ## One bit of an interrupt word -/

theorem bitSet_getLsbD_ite (v : Word) (i : Nat) {k : Nat} (hk : k < 32) :
    (bitSet v i).getLsbD k = if k = i then true else v.getLsbD k := by
  rw [bitSet_getLsbD v i hk]
  by_cases hki : k = i <;> simp [hki]

theorem bitClear_getLsbD_ite (v : Word) (i : Nat) {k : Nat} (hk : k < 32) :
    (bitClear v i).getLsbD k = if k = i then false else v.getLsbD k := by
  rw [bitClear_getLsbD v i hk]
  by_cases hki : k = i <;> simp [hki]

/-! ## `TINTCLR` -/

/-- The word `TINTCLR i` leaves in `IPR`, before the bits that do not exist are dropped. -/
def clearedIpr (i : Nat) (v : Word) : Word :=
  if i = 28 then withTeaTask 0#4 (bitClear v i) else bitClear v i

theorem exec_tintclr_source {i : Nat} {s : State} (hlive : s.fatal = false) (hi : SourceNumber i) :
    exec (.tintclr i) s = .next ((s.setIpr (clearedIpr i s.ipr)).ret noErr) := by
  rw [exec, execTintclr, command_withSource_source hlive hi]
  rfl

theorem exec_tintclr_refused {i : Nat} {s : State} (hlive : s.fatal = false) (hi : ¬SourceNumber i) :
    exec (.tintclr i) s = .next (s.ret invalidArg) := by
  rw [exec, execTintclr, command_withSource_refused hlive hi]

/-- The bit of the source goes, and with source 28 the sub-field. -/
theorem clearedIpr_getLsbD (i : Nat) (v : Word) {k : Nat} (hk : k < 32) :
    (clearedIpr i v).getLsbD k =
      if k = i ∨ (i = 28 ∧ 24 ≤ k ∧ k ≤ 27) then false else v.getLsbD k := by
  unfold clearedIpr
  split
  · next htea =>
    rw [withTeaTask_getLsbD _ _ hk, bitClear_getLsbD_ite _ _ hk]
    by_cases hsub : 24 ≤ k ∧ k ≤ 27 <;> simp [htea, hsub]
  · next htea =>
    rw [bitClear_getLsbD_ite _ _ hk]
    simp [htea]

/-- A word with bits cleared reads with the same bits cleared. -/
theorem iprValue_setIpr_getLsbD_ite {s : State} {v : Word} {k : Nat} {p : Prop} [Decidable p]
    (h : v.getLsbD k = if p then false else s.ipr.getLsbD k) :
    (iprValue (s.setIpr v)).getLsbD k = if p then false else (iprValue s).getLsbD k := by
  rw [iprValue_setIpr, iprValue, BitVec.getLsbD_and, BitVec.getLsbD_and, h]
  split <;> simp

/-- R160: what `TINTCLR i` leaves of `IPR` as it reads. -/
theorem iprValue_cleared_getLsbD (i : Nat) (s : State) {k : Nat} (hk : k < 32) :
    (iprValue (s.setIpr (clearedIpr i s.ipr))).getLsbD k =
      if k = i ∨ (i = 28 ∧ 24 ≤ k ∧ k ≤ 27) then false else (iprValue s).getLsbD k :=
  iprValue_setIpr_getLsbD_ite (clearedIpr_getLsbD i s.ipr hk)

/-- Settles O39: the word left is `clearedIpr`, read bit by bit by `iprValue_cleared_getLsbD`. -/
theorem tintclrClearsOneSource : Obligations.TintclrClearsOneSource := by
  unfold Obligations.TintclrClearsOneSource
  refine fun i s hlive => ⟨fun hi => ⟨_, exec_tintclr_source hlive hi, fun k hk => ?_⟩, fun hi => ?_⟩
  · exact iprValue_cleared_getLsbD i s hk
  · exact exec_tintclr_refused hlive hi

/-! ## `TINTSRC` -/

/-- The sub-field of R17 exists, so it reads as it is stored. -/
theorem teaTask_iprValue (s : State) : teaTask (iprValue s) = teaTask s.ipr := by
  apply BitVec.eq_of_getLsbD_eq
  intro k hk
  have hfield : 24 ≤ 24 + k ∧ 24 + k ≤ 27 := by omega
  simp [teaTask, iprValue, iprMask_getLsbD, hk, hfield]

theorem exec_tintsrc_tea {s : State} (hlive : s.fatal = false)
    (htea : (effectivePending s).getLsbD 28 = true) :
    exec .tintsrc s = .next (s.ret ((teaTask (iprValue s)).setWidth 32)) := by
  rw [exec, execTintsrc, command_live hlive, if_pos htea, teaTask_iprValue]

theorem exec_tintsrc_task {s : State} {t : Nat} (hlive : s.fatal = false)
    (htea : (effectivePending s).getLsbD 28 = false)
    (hscan : highestTask (effectivePending s) 16 = some t) :
    exec .tintsrc s = .next (s.ret (BitVec.ofNat 32 t)) := by
  rw [exec, execTintsrc, command_live hlive, htea, hscan]
  rfl

theorem exec_tintsrc_none {s : State} (hlive : s.fatal = false)
    (htea : (effectivePending s).getLsbD 28 = false)
    (hscan : highestTask (effectivePending s) 16 = none) :
    exec .tintsrc s = .next (s.ret noIntr) := by
  rw [exec, execTintsrc, command_live hlive, htea, hscan]
  rfl

/-- Settles O41: TEA, or else what the scan finds, which `highestTask_eq_some` and `highestTask_eq_none`
say. -/
theorem tintsrcReportsTheHighestTask : Obligations.TintsrcReportsTheHighestTask := by
  unfold Obligations.TintsrcReportsTheHighestTask
  intro s hlive ep
  cases htea : ep.getLsbD 28 with
  | true => exact ⟨_, exec_tintsrc_tea hlive htea, fun _ => rfl, nofun⟩
  | false =>
    cases hscan : highestTask ep 16 with
    | some t =>
      refine ⟨_, exec_tintsrc_task hlive htea hscan, nofun, fun _ => ⟨fun u hu hpend hfirst => ?_,
        fun hnone => ?_⟩⟩
      · rw [highestTask_eq_some.mpr ⟨hu, hpend, hfirst⟩] at hscan
        rw [Option.some.inj hscan]
      · rw [highestTask_eq_none.mpr hnone] at hscan
        cases hscan
    | none =>
      refine ⟨_, exec_tintsrc_none hlive htea hscan, nofun, fun _ => ⟨fun u hu hpend _ => ?_,
        fun _ => rfl⟩⟩
      rw [highestTask_eq_none.mp hscan u hu] at hpend
      cases hpend

/-! ## `GIRQEN` and `GIRQDIS` -/

/-- `IMR[i]` as one value: 0 where the source is enabled. -/
theorem maskBit_getLsbD (v : Word) (i : Nat) (enable : Bool) {k : Nat} (hk : k < 32) :
    (if enable then bitClear v i else bitSet v i).getLsbD k =
      if k = i then !enable else v.getLsbD k := by
  cases enable with
  | true => exact bitClear_getLsbD_ite v i hk
  | false => exact bitSet_getLsbD_ite v i hk

/-- The bits of `IMR` that are no source read 1 (R18). -/
theorem or_not_srcMask_getLsbD (v : Word) {k : Nat} (hk : k < 32) :
    (v ||| ~~~srcMask).getLsbD k = (v.getLsbD k || !isSource k) := by
  simp [isSource, hk]

/-- R172, R173: the mask bit of a source as `IMR` reads, every other bit preserved. -/
theorem imrValue_setMaskBit_getLsbD (s : State) {i k : Nat} (enable : Bool) (hi : SourceNumber i)
    (hk : k < 32) :
    (imrValue (s.setMaskBit i enable)).getLsbD k = if k = i then !enable else (imrValue s).getLsbD k := by
  rw [State.setMaskBit, imrValue_setImr, imrValue, or_not_srcMask_getLsbD _ hk,
    or_not_srcMask_getLsbD _ hk, maskBit_getLsbD _ _ _ hk]
  by_cases hki : k = i
  · subst hki
    simp [isSource_iff.mpr hi]
  · simp [hki]

/-- Settles O42: both toggles are `State.setMaskBit`, with the two values of its flag. -/
theorem girqenAndGirqdisToggleOneMaskBit : Obligations.GirqenAndGirqdisToggleOneMaskBit := by
  unfold Obligations.GirqenAndGirqdisToggleOneMaskBit
  refine fun i s hlive => ⟨fun hi => ⟨⟨_, ?_, fun k hk => imrValue_setMaskBit_getLsbD s true hi hk⟩,
    ⟨_, ?_, fun k hk => imrValue_setMaskBit_getLsbD s false hi hk⟩⟩, fun hi => ⟨?_, ?_⟩⟩
  · rw [exec, execGirqen, command_withSource_source hlive hi]
    rfl
  · rw [exec, execGirqdis, command_withSource_source hlive hi]
    rfl
  · rw [exec, execGirqen, command_withSource_refused hlive hi]
    rfl
  · rw [exec, execGirqdis, command_withSource_refused hlive hi]
    rfl

/-! ## `TINTSTAT` and `TINTPEND` -/

/-- Settles O40: each branch of the rule ends in a `return`, so the choice is one of values. -/
theorem tintstatAndTintpendAnswer : Obligations.TintstatAndTintpendAnswer := by
  unfold Obligations.TintstatAndTintpendAnswer
  refine fun s hlive => ⟨fun t => ?_, fun t => ?_, fun i hi => ⟨?_, ?_⟩⟩
  · rw [exec, execTintstat, command_withTask_handle hlive]
    simp only [← apply_ite s.ret]
    rfl
  · rw [exec, execTintpend, command_withTask_handle hlive, ← apply_ite s.ret]
    rfl
  · rw [exec, execTintstat, command_withTask_refused hlive hi]
    rfl
  · rw [exec, execTintpend, command_withTask_refused hlive hi]
    rfl

/-! ## `GINIT` -/

theorem irq_before_ginit {s : State} (h : s.glueInit = false) : irq s = false := by
  rw [irq, h, Bool.false_and]

theorem demuxFire_before_ginit {s : State} (h : s.glueInit = false) : demuxFire s = none :=
  if_neg fun ⟨_, hirq⟩ => Bool.false_ne_true ((irq_before_ginit h).symm.trans hirq)

/-- Settles O43: one case per value of `GLUE_INIT`, which also gates `IRQ`. -/
theorem ginitClearsTheHandlersOnce : Obligations.GinitClearsTheHandlersOnce := by
  unfold Obligations.GinitClearsTheHandlersOnce
  intro s hlive
  refine ⟨fun hfirst => ⟨Vector.replicate 32 Handler.none, ?_, fun i => ?_⟩, fun hlater => ?_,
    fun hfirst => ⟨irq_before_ginit hfirst, demuxFire_before_ginit hfirst⟩⟩
  · rw [exec, execGinit, command_live hlive, hfirst]
    rfl
  · have hclear : (Vector.replicate 32 Handler.none)[i] = Handler.none :=
      Vector.getElem_replicate i.isLt
    rw [hclear]
    exact ⟨rfl, rfl⟩
  · rw [exec, execGinit, command_live hlive, if_pos hlater]
    rfl

/-! ## `GINSTALL` -/

/-- Settles O44: the slots are those below 32. -/
theorem ginstallWritesOneHandler : Obligations.GinstallWritesOneHandler := by
  unfold Obligations.GinstallWritesOneHandler
  refine fun s hlive => ⟨fun i => ?_, fun i hi => ?_⟩
  · rw [exec, execGinstall, command_live hlive, dif_pos i.isLt]
    rfl
  · rw [exec, execGinstall, command_live hlive, dif_neg (Nat.not_lt.mpr hi)]
    rfl

/-! ## `GHDONE` -/

/-- Settles O45: one case per value of `DMX_WAIT`. -/
theorem ghdoneAcknowledgesTheHandler : Obligations.GhdoneAcknowledgesTheHandler := by
  unfold Obligations.GhdoneAcknowledgesTheHandler
  refine fun s hlive => ⟨fun hwait => ?_, fun hidle => ?_⟩
  · rw [exec, execGhdone, command_live hlive, if_pos hwait]
    rfl
  · rw [exec, execGhdone, command_live hlive, if_neg (by simp [hidle])]
    rfl

end Sys2Proof.Proofs
end

section
/-! PROOF. What each move leaves of the pending bits (`60_exceptions.md` R190, `43_interrupt_ops.md` R161):
the engine sets them; `TINTCLR`, the demultiplexer's step for a source with no handler, and reset clear
them. -/

namespace Sys2Proof.Proofs

open Sys2Proof.Machine

/-! ## Commands that keep a part of the state -/

section
variable {α : Type} {f : State → α} {s s' : State}

theorem ite_keeps {c : Prop} [Decidable c] {a b : State} (ha : f a = f s) (hb : f b = f s) :
    f (if c then a else b) = f s := by
  split
  · exact ha
  · exact hb

/-- The range check of R182 keeps whatever `return` and the checked rule keep. -/
theorem withTask_keeps {t : Nat} {body : TaskId → State} (hret : f (s.ret invalidArg) = f s)
    (hbody : ∀ u, f (body u) = f s) : f (withTask t s body) = f s := by
  unfold withTask
  cases taskHandle t with
  | none => exact hret
  | some u => exact hbody u

/-- The gate of R60 keeps whatever the command's rule keeps. -/
theorem command_keeps {body : State → State} (h : command s body = .next s')
    (hbody : f (body s) = f s) : f s' = f s := by
  rcases command_next_iff.mp h with ⟨-, rfl⟩ | ⟨-, rfl⟩
  · rfl
  · exact hbody

end

/-! ## The commands -/

section
variable {s s' : State} {k : Nat}

theorem ipr_allocRing (t : TaskId) (np : BitVec 2) (apiConfig : Byte)
    (baseSlot startSlot maxBD : Word) :
    (s.allocRing t np apiConfig baseSlot startSlot maxBD).ipr = s.ipr := by
  rw [allocRing_eq]

theorem ipr_armRing (t : TaskId) (lastSlot status numBD : Word) :
    (s.armRing t lastSlot status numBD).ipr = s.ipr := by
  rw [armRing_eq]

/-- R161: no command but `TINTCLR` writes `IPR`; the terms follow the checks of each rule. -/
theorem ipr_exec_kept {i : Instr} (h : exec i s = .next s') (hi : instrOp i ≠ .tintclr) :
    s'.ipr = s.ipr := by
  unfold exec at h
  cases i with
  | tintclr => exact absurd rfl hi
  | tstop | tstat | bdinuse | tseti | szset =>
    exact command_keeps h (withTask_keeps rfl fun _ => rfl)
  | bdreset | tintpend =>
    exact command_keeps h (withTask_keeps rfl fun _ => ite_keeps rfl rfl)
  | tstart | bdassign | bdrelease =>
    exact command_keeps h (withTask_keeps rfl fun _ => ite_keeps rfl (ite_keeps rfl rfl))
  | tintstat =>
    exact command_keeps h (withTask_keeps rfl fun _ =>
      ite_keeps rfl (ite_keeps rfl (ite_keeps rfl rfl)))
  | bdsetup =>
    exact command_keeps h (withTask_keeps rfl fun _ =>
      ite_keeps rfl (ite_keeps rfl (ite_keeps rfl (ite_keeps rfl (ite_keeps
        (ite_keeps rfl (ite_keeps rfl
          ((State.ret_ipr ..).trans ((ipr_armRing ..).trans (ipr_allocRing ..)))))
        (ite_keeps rfl (ite_keeps rfl ((State.ret_ipr ..).trans (ipr_armRing ..)))))))))
  | apiinit | ginit | girqen | girqdis | ghdone =>
    exact command_keeps h (ite_keeps rfl rfl)
  | drdpatch => exact command_keeps h (ite_keeps rfl (ite_keeps rfl rfl))
  | tcfg =>
    exact command_keeps h (ite_keeps rfl
      ((State.ret_ipr ..).trans ((State.setTcr_ipr ..).trans (ite_keeps rfl rfl))))
  | ginstall i =>
    refine command_keeps h ?_
    split <;> rfl
  | bdget t | bdring t =>
    refine command_keeps h ?_
    cases taskHandle t with
    | none => rfl
    | some u => exact ite_keeps rfl rfl
  | tintsrc =>
    refine command_keeps h (ite_keeps rfl ?_)
    cases highestTask (effectivePending s) 16 with
    | none => rfl
    | some t => rfl

theorem getLsbD_iprValue_congr (h : s'.ipr = s.ipr) :
    (iprValue s').getLsbD k = (iprValue s).getLsbD k := by
  rw [iprValue, h, ← iprValue]

/-- A source lies in the word and outside the sub-field of R17. -/
theorem source_bounds (hk : SourceNumber k) : k < 32 ∧ ¬(24 ≤ k ∧ k ≤ 27) := by
  unfold SourceNumber at hk
  omega

/-- `TINTCLR` clears the bit of its own source or of none, since `TEA_TASK` is no source. -/
theorem iprValue_exec_tintclr {i : Nat} (h : exec (.tintclr i) s = .next s') (hk : SourceNumber k) :
    (iprValue s').getLsbD k = (iprValue s).getLsbD k ∨ (i = k ∧ (iprValue s').getLsbD k = false) := by
  cases hfatal : s.fatal with
  | true =>
    rw [exec, execTintclr, command_stopped hfatal] at h
    obtain rfl := Host.Outcome.next.inj h
    exact .inl rfl
  | false =>
    by_cases hi : SourceNumber i
    · rw [exec_tintclr_source hfatal hi] at h
      obtain rfl := Host.Outcome.next.inj h
      obtain ⟨hlt, hfield⟩ := source_bounds hk
      have hbit := iprValue_cleared_getLsbD i s hlt
      by_cases hki : k = i
      · exact .inr ⟨hki.symm, hbit.trans (if_pos (.inl hki))⟩
      · exact .inl (hbit.trans (if_neg (by simp [hki, hfield])))
    · rw [exec_tintclr_refused hfatal hi] at h
      obtain rfl := Host.Outcome.next.inj h
      exact .inl rfl

/-- A command keeps the pending bit of a source or is the `TINTCLR` that clears it. -/
theorem iprValue_exec {i : Instr} (h : exec i s = .next s') (hk : SourceNumber k) :
    (iprValue s').getLsbD k = (iprValue s).getLsbD k ∨
      (i = .tintclr k ∧ (iprValue s').getLsbD k = false) := by
  cases i with
  | tintclr i =>
    exact (iprValue_exec_tintclr h hk).imp_right fun ⟨hik, hclear⟩ => ⟨congrArg Instr.tintclr hik, hclear⟩
  | _ => exact .inl (getLsbD_iprValue_congr (ipr_exec_kept h nofun))

/-- The same for a write of `CMD`, refused or illegal words included. -/
theorem iprValue_writeCmd {w : Word} (h : writeCmd w s = .next s') (hk : SourceNumber k) :
    (iprValue s').getLsbD k = (iprValue s).getLsbD k ∨
      (decode w = .ok (.tintclr k) ∧ (iprValue s').getLsbD k = false) := by
  unfold writeCmd at h
  split at h
  · obtain rfl := Host.Outcome.next.inj h
    exact .inl rfl
  · cases hdecode : decode w with
    | error e =>
      rw [runWord_error hdecode] at h
      obtain rfl := Host.Outcome.next.inj h
      exact .inl rfl
    | ok i =>
      rw [runWord, hdecode] at h
      exact (iprValue_exec (s := { s with cmd := w }) h hk).imp_right fun ⟨hi, hclear⟩ =>
        ⟨congrArg Except.ok hi, hclear⟩

/-! ## The engine -/

theorem ipr_engineDone {t : TaskId} (h : engineDone t s = some s') : s'.ipr = s.ipr := by
  obtain ⟨-, h⟩ := Option.ite_none_right_eq_some.mp h
  split at h
  all_goals
    obtain rfl := Option.some.inj h
    rfl

theorem ipr_engineSelfDis {t : TaskId} (h : engineSelfDis t s = some s') : s'.ipr = s.ipr := by
  obtain ⟨-, h⟩ := Option.ite_none_right_eq_some.mp h
  obtain rfl := Option.some.inj h
  rfl

theorem ipr_engineBdDone {t : TaskId} {status : Word} (h : engineBdDone t status s = some s') :
    s'.ipr = s.ipr := by
  obtain ⟨-, h⟩ := Option.ite_none_right_eq_some.mp h
  obtain rfl := Option.some.inj h
  rfl

/-- R98: no move of the engine clears the pending bit of a source. -/
theorem iprValue_engineMove {e : EngineEvent} (h : engineMove e s = some s') (hk : SourceNumber k)
    (hpend : (iprValue s).getLsbD k = true) : (iprValue s').getLsbD k = true := by
  obtain ⟨hlt, hfield⟩ := source_bounds hk
  cases e with
  | int t =>
    obtain rfl := Option.some.inj h
    have hsource : isSource t.val = true := isSource_iff.mpr (.inl t.isLt)
    rw [iprValue_pend_getLsbD s hsource hlt, hpend, ite_self]
  | dbg =>
    obtain rfl := Option.some.inj h
    have hsource : isSource 31 = true := isSource_iff.mpr (by decide)
    rw [iprValue_pend_getLsbD s hsource hlt, hpend, ite_self]
  | tea t =>
    obtain rfl := Option.some.inj h
    rw [iprValue_tea_getLsbD s t hlt, if_neg hfield, hpend, ite_self]
  | done t => exact (getLsbD_iprValue_congr (ipr_engineDone h)).trans hpend
  | selfDis t => exact (getLsbD_iprValue_congr (ipr_engineSelfDis h)).trans hpend
  | bdDone t status => exact (getLsbD_iprValue_congr (ipr_engineBdDone h)).trans hpend

/-! ## The demultiplexer -/

theorem ipr_demuxFire (h : demuxFire s = some s') : s'.ipr = s.ipr := by
  obtain ⟨-, h⟩ := Option.ite_none_right_eq_some.mp h
  obtain rfl := Option.some.inj h
  rfl

/-- R199: a scan step changes `IPR` only where it finds no handler for its source. -/
theorem ipr_demuxScan (h : demuxScan s = some s') :
    s'.ipr = s.ipr ∨ (s.dmxActive = true ∧ s.dmxWait = false ∧
      ∃ j : Fin 32, s.ht[j].fn = 0#32 ∧ s'.ipr = (s.unpend j.val).ipr) := by
  obtain ⟨⟨hactive, hwait⟩, h⟩ := Option.ite_none_right_eq_some.mp h
  cases hnext : nextSource s.dmxSnap s.dmxIdx.toNat with
  | none =>
    rw [hnext] at h
    obtain rfl := Option.some.inj h
    exact .inl rfl
  | some j =>
    rw [hnext] at h
    by_cases hfn : s.ht[j].fn = 0#32
    · obtain rfl := Option.some.inj ((if_neg (not_not.mpr hfn)).symm.trans h)
      exact .inr ⟨hactive, hwait, j, hfn, rfl⟩
    · obtain rfl := Option.some.inj ((if_pos hfn).symm.trans h)
      exact .inl rfl

theorem ipr_demuxStep (h : demuxStep s = some s') :
    s'.ipr = s.ipr ∨ (s.dmxActive = true ∧ s.dmxWait = false ∧
      ∃ j : Fin 32, s.ht[j].fn = 0#32 ∧ s'.ipr = (s.unpend j.val).ipr) := by
  unfold demuxStep at h
  split at h
  · exact ipr_demuxScan h
  · exact .inl (ipr_demuxFire h)

/-- The defensive clear takes one bit; unlike `TINTCLR` it keeps the sub-field, source 28 included. -/
theorem iprValue_unpend_getLsbD (s : State) (i : Nat) (hlt : k < 32) :
    (iprValue (s.unpend i)).getLsbD k = if k = i then false else (iprValue s).getLsbD k :=
  iprValue_setIpr_getLsbD_ite (bitClear_getLsbD_ite s.ipr i hlt)

/-! ## The step -/

/-- The moves that R161 allows to clear pending bit `k`. -/
def ClearsPending (m : Input) (s : State) (k : Nat) : Prop :=
  (∃ w, m = .cmd w ∧ decode w = .ok (.tintclr k)) ∨
  (m = .demux ∧ s.dmxActive = true ∧ s.dmxWait = false ∧ ∃ j : Fin 32, j.val = k ∧ s.ht[j].fn = 0#32) ∨
  m = .reset

theorem pending_demuxStep (h : demuxStep s = some s') (hk : SourceNumber k)
    (hpend : (iprValue s).getLsbD k = true) :
    (iprValue s').getLsbD k = true ∨ ClearsPending .demux s k := by
  rcases ipr_demuxStep h with hkept | ⟨hactive, hwait, j, hfn, hclear⟩
  · exact .inl ((getLsbD_iprValue_congr hkept).trans hpend)
  · by_cases hjk : k = j.val
    · exact .inr (.inr (.inl ⟨rfl, hactive, hwait, j, hjk.symm, hfn⟩))
    · refine .inl ?_
      rw [getLsbD_iprValue_congr hclear, iprValue_unpend_getLsbD s j.val (source_bounds hk).1, if_neg hjk, hpend]

/-- Every move keeps the pending bit of a source or clears it as R161 allows. -/
theorem pending_applyInput {m : Input} (h : applyInput m s = .next s') (hk : SourceNumber k)
    (hpend : (iprValue s).getLsbD k = true) : (iprValue s').getLsbD k = true ∨ ClearsPending m s k := by
  cases m with
  | cmd w =>
    rcases iprValue_writeCmd h hk with hkept | ⟨hdecode, -⟩
    · exact .inl (hkept.trans hpend)
    · exact .inr (.inl ⟨w, rfl, hdecode⟩)
  | engine e =>
    obtain rfl := Host.Outcome.next.inj h
    cases hmove : engineMove e s with
    | none => exact .inl hpend
    | some s' => exact .inl (iprValue_engineMove hmove hk hpend)
  | demux =>
    obtain rfl := Host.Outcome.next.inj h
    cases hmove : demuxStep s with
    | none => exact .inl hpend
    | some s' => exact pending_demuxStep hmove hk hpend
  | reset => exact .inr (.inr (.inr rfl))
  | arg n v =>
    obtain rfl := Host.Outcome.next.inj h
    exact .inl hpend
  | prio i b =>
    obtain rfl := Host.Outcome.next.inj h
    exact .inl hpend
  | storeWord a v =>
    obtain ⟨-, rfl⟩ := storeWord_next_iff.mp h
    exact .inl hpend
  | storeByte a b =>
    obtain ⟨-, rfl⟩ := storeByte_next_iff.mp h
    exact .inl hpend

end

/-- Settles O50: a step is one move, which clears as R161 allows (`pending_applyInput`); and a write of
`CMD` keeps the bit or leaves it 0 (`iprValue_writeCmd`). -/
theorem pendingBitsHaveTwoClearers : Obligations.PendingBitsHaveTwoClearers := by
  unfold Obligations.PendingBitsHaveTwoClearers
  intro s s' m rest k hinputs hstep hk
  rw [step_cons hinputs] at hstep
  refine ⟨fun hpend hfall => ?_, ?_⟩
  · rcases pending_applyInput hstep hk hpend with hkept | hclears
    · exact absurd (hkept.symm.trans hfall) (by decide)
    · exact hclears
  · rintro w rfl hset
    rcases iprValue_writeCmd hstep hk with hkept | ⟨-, hclear⟩
    · exact hkept.symm.trans hset
    · exact absurd (hset.symm.trans hclear) (by decide)

end Sys2Proof.Proofs
end

section
/-! PROOF. The demultiplexer (`60_exceptions.md` R197 to R199): the interrupt request, the fire step and
the three ends of a scan step. -/

namespace Sys2Proof.Proofs

open Sys2Proof.Machine

/-- R197. -/
theorem irq_iff {s : State} : irq s = true ↔ s.glueInit = true ∧ effectivePending s ≠ 0#32 := by
  rw [irq, Bool.and_eq_true, decide_eq_true_iff]

/-- A move of the demultiplexer whose precondition holds is made. -/
theorem step_demux {s s' : State} {rest : List Input} (h : s.inputs = .demux :: rest)
    (hmove : demuxStep { s with inputs := rest } = some s') : step s = .next s' := by
  rw [step_cons h, applyInput, hmove, Option.getD_some]

section
variable {s : State}

/-! ## Fire -/

/-- R198: with `IRQ` high an idle demultiplexer takes its snapshot. -/
theorem demuxStep_fires (hidle : s.dmxActive = false) (hirq : irq s = true) :
    demuxStep s = some { s with dmxSnap := effectivePending s, dmxIdx := 0#6, dmxActive := true } := by
  rw [demuxStep, hidle, if_neg Bool.false_ne_true]
  exact if_pos ⟨hidle, hirq⟩

/-! ## The next source of the snapshot -/

theorem nextSource_eq_some_iff {w : Word} {idx : Nat} {i : Fin 32} :
    nextSource w idx = some i ↔
      idx ≤ i.val ∧ w.getLsbD i.val = true ∧ ∀ j, idx ≤ j → j < i.val → w.getLsbD j = false := by
  refine ⟨fun h => ⟨(nextSource_some h).1, (nextSource_some h).2, nextSource_first h⟩, ?_⟩
  rintro ⟨hidx, hset, hfirst⟩
  cases hnext : nextSource w idx with
  | none => exact absurd (hset.symm.trans (nextSource_none hnext i.val hidx i.isLt)) (by decide)
  | some j =>
    obtain ⟨hidx', hset'⟩ := nextSource_some hnext
    rcases lt_trichotomy j.val i.val with hlt | heq | hgt
    · exact absurd (hset'.symm.trans (hfirst j.val hidx' hlt)) (by decide)
    · rw [Fin.ext heq]
    · exact absurd (hset.symm.trans (nextSource_first hnext i.val hidx hgt)) (by decide)

theorem nextSource_eq_none_iff {w : Word} {idx : Nat} :
    nextSource w idx = none ↔ ∀ j, idx ≤ j → j < 32 → w.getLsbD j = false := by
  refine ⟨nextSource_none, fun hclear => ?_⟩
  cases hnext : nextSource w idx with
  | none => rfl
  | some j =>
    obtain ⟨hidx, hset⟩ := nextSource_some hnext
    exact absurd (hset.symm.trans (hclear j.val hidx j.isLt)) (by decide)

/-! ## Scan -/

theorem demuxStep_active (hactive : s.dmxActive = true) : demuxStep s = demuxScan s :=
  if_pos hactive

theorem demuxStep_enters {i : Fin 32} (hactive : s.dmxActive = true) (hwait : s.dmxWait = false)
    (hnext : nextSource s.dmxSnap s.dmxIdx.toNat = some i) (hfn : s.ht[i].fn ≠ 0#32) :
    demuxStep s = some (enterHandler s i) := by
  rw [demuxStep_active hactive, demuxScan, if_pos ⟨hactive, hwait⟩, hnext]
  exact if_pos hfn

theorem demuxStep_clears {i : Fin 32} (hactive : s.dmxActive = true) (hwait : s.dmxWait = false)
    (hnext : nextSource s.dmxSnap s.dmxIdx.toNat = some i) (hfn : s.ht[i].fn = 0#32) :
    demuxStep s = some { s.unpend i.val with dmxIdx := BitVec.ofNat 6 (i.val + 1) } := by
  rw [demuxStep_active hactive, demuxScan, if_pos ⟨hactive, hwait⟩, hnext]
  exact if_neg (not_not.mpr hfn)

theorem demuxStep_ends (hactive : s.dmxActive = true) (hwait : s.dmxWait = false)
    (hnext : nextSource s.dmxSnap s.dmxIdx.toNat = none) :
    demuxStep s = some { s with dmxActive := false } := by
  rw [demuxStep_active hactive, demuxScan, if_pos ⟨hactive, hwait⟩, hnext]

end

/-- Settles O55: `irq_iff`, and the fire step it enables. -/
theorem demultiplexerFiresOnIrq : Obligations.DemultiplexerFiresOnIrq := by
  unfold Obligations.DemultiplexerFiresOnIrq
  refine ⟨fun s => irq_iff, fun s rest hmove hidle hglue hpending => ?_⟩
  exact step_demux hmove (demuxStep_fires hidle (irq_iff.mpr ⟨hglue, hpending⟩))

/-- Settles O56: the bit named is the one `nextSource` finds, so the step is one of the three ends. -/
theorem demultiplexerServesTheNextSource : Obligations.DemultiplexerServesTheNextSource := by
  unfold Obligations.DemultiplexerServesTheNextSource
  refine fun s rest hmove hactive hwait => ⟨fun i hidx hset hfirst => ?_, fun hclear => ?_⟩
  · have hnext : nextSource s.dmxSnap s.dmxIdx.toNat = some i :=
      nextSource_eq_some_iff.mpr ⟨hidx, hset, hfirst⟩
    refine ⟨fun hfn => ?_, fun hfn => ⟨(s.unpend i.val).ipr, ?_, fun k hk => ?_⟩⟩
    · exact step_demux hmove (demuxStep_enters hactive hwait hnext hfn)
    · exact step_demux hmove (demuxStep_clears hactive hwait hnext hfn)
    · exact iprValue_unpend_getLsbD s i.val hk
  · exact step_demux hmove (demuxStep_ends hactive hwait (nextSource_eq_none_iff.mpr hclear))

end Sys2Proof.Proofs
end

section
/-! PROOF. How a command ends (`60_exceptions.md` R180 to R188, R196): refused for a cause of the table,
with another error code, with an address, with a value, or in the fatal stop. -/

namespace Sys2Proof.Proofs

open Sys2Proof.Machine

/-! ## The ends -/

/-- The error codes other than `INVALID_ARG` that a command returns (R183 to R186). -/
def otherErrors : List Word := [bdRingFull, apiAlreadyInitialized, sizeTooLarge, bdRingEmpty, bdBusy]

/-- A first ring that does not fit, or a number of pointers no BD has: the two causes of the fatal stop,
for a `BDSETUP` that passed lines 1 to 4 of R100 (R196). -/
def FatalCause (s : State) (t : TaskId) (np : BitVec 2) : Prop :=
  SetupOperandsOk s ∧
    if np = 1#2 ∨ np = 2#2 then s.rt[t].base = 0#32 ∧ argReg s 5 ≠ 0#32 ∧ ¬RingFits s np else True

/-- How the command `i` ends in `s`, where `FATAL` = 0. -/
inductive CommandEnd (s : State) (i : Instr) : State → Prop where
  /-- R182. -/
  | refused (cause : InvalidArgCause s i) : CommandEnd s i (s.ret invalidArg)
  /-- R183 to R186. -/
  | error {v : Word} (noCause : ¬InvalidArgCause s i) (code : v ∈ otherErrors) : CommandEnd s i (s.ret v)
  /-- R118, R119: an address has no sign, but is a multiple of 4 where the bases are (R43). -/
  | address {v : Word} (noCause : ¬InvalidArgCause s i) (getter : instrOp i = .bdget ∨ instrOp i = .bdring)
      (aligned : (∀ t : TaskId, s.rt[t].base.toNat % 4 = 0) → v.toNat % 4 = 0) : CommandEnd s i (s.ret v)
  /-- R180: -1, or a value that is not negative. -/
  | value {a : State} {v : Word} (noCause : ¬InvalidArgCause s i) (live : a.fatal = false)
      (noError : -1 ≤ v.toInt) : CommandEnd s i (a.ret v)
  /-- R196. -/
  | fatal {t : TaskId} {np : BitVec 2} {apiConfig : Byte} (setup : i = .bdsetup t.val np apiConfig)
      (cause : FatalCause s t np) :
      CommandEnd s i (raiseFatal s (if np = 1#2 ∨ np = 2#2 then allocFail else badNumPtr))

section
variable {s s' : State} {i : Instr}

theorem CommandEnd.of_ite {c : Prop} [Decidable c] {a b : State} (ha : c → CommandEnd s i a)
    (hb : ¬c → CommandEnd s i b) : CommandEnd s i (if c then a else b) := by
  split
  · next hc => exact ha hc
  · next hc => exact hb hc

/-- A check that refuses for a cause of the table. -/
theorem CommandEnd.of_check {c : Prop} [Decidable c] {a : State} (hcause : c → InvalidArgCause s i)
    (ha : ¬c → CommandEnd s i a) : CommandEnd s i (if c then s.ret invalidArg else a) :=
  .of_ite (fun hc => .refused (hcause hc)) ha

theorem CommandEnd.of_withTask {t : Nat} {body : TaskId → State} (hcause : 16 ≤ t → InvalidArgCause s i)
    (hbody : ∀ u : TaskId, u.val = t → CommandEnd s i (body u)) : CommandEnd s i (withTask t s body) := by
  by_cases ht : t < 16
  · rw [withTask_lt _ _ ht]
    exact hbody ⟨t, ht⟩ rfl
  · rw [withTask_ge _ _ (Nat.le_of_not_lt ht)]
    exact .refused (hcause (Nat.le_of_not_lt ht))

/-- A task command whose only cause is a task number out of range (R182), and which then ends well. -/
theorem CommandEnd.of_task {t : Nat} {body : TaskId → State} (hcause : InvalidArgCause s i ↔ 16 ≤ t)
    (hbody : ∀ u : TaskId, ¬InvalidArgCause s i → CommandEnd s i (body u)) :
    CommandEnd s i (withTask t s body) :=
  .of_withTask hcause.mpr fun u hu => hbody u fun hbad => by
    have := hcause.mp hbad
    omega

/-- A source command whose only cause is a number that is no source (R182). -/
theorem CommandEnd.of_source {n : Nat} {a : State} {v : Word}
    (hcause : InvalidArgCause s i ↔ ¬SourceNumber n) (live : a.fatal = false) (noError : -1 ≤ v.toInt) :
    CommandEnd s i (withSource n s (a.ret v)) := by
  by_cases hn : SourceNumber n
  · rw [withSource_source _ _ (isSource_iff.mpr hn)]
    exact .value (fun hbad => hcause.mp hbad hn) live noError
  · rw [withSource_other _ _ (Bool.eq_false_iff.mpr (mt isSource_iff.mp hn))]
    exact .refused (hcause.mpr hn)

theorem CommandEnd.of_command {body : State → State} (h : command s body = .next s')
    (hlive : s.fatal = false) (hbody : CommandEnd s i (body s)) : CommandEnd s i s' := by
  rw [command_live hlive] at h
  exact Host.Outcome.next.inj h ▸ hbody

/-! ## Values that are no error -/

theorem noError_of_toNat_lt {v : Word} (h : v.toNat < 2 ^ 31) : -1 ≤ v.toInt := by
  rw [BitVec.toInt_eq_toNat_of_lt (by omega)]
  omega

theorem noError_noErr : -1 ≤ noErr.toInt := by
  decide

/-- A field widened to a register (R120, R107, R87). -/
theorem noError_setWidth {n : Nat} (x : BitVec n) (hn : n ≤ 16) : -1 ≤ (x.setWidth 32).toInt := by
  have hx : x.toNat < 2 ^ 16 := lt_of_lt_of_le x.isLt (Nat.pow_le_pow_right (by decide) hn)
  refine noError_of_toNat_lt ?_
  rw [BitVec.toNat_setWidth]
  omega

/-- The number of a task or of a source (R130, R162). -/
theorem noError_ofNat {n : Nat} (hn : n < 32) : -1 ≤ (BitVec.ofNat 32 n).toInt := by
  refine noError_of_toNat_lt ?_
  rw [BitVec.toNat_ofNat]
  omega

/-! ## `BDSETUP` -/

/-- Lines 2 to 4 of R100, as the tests of the rule. -/
theorem setupOperandsOk_iff :
    SetupOperandsOk s ↔
      (aligned (argReg s 0) ∧ aligned (argReg s 1) ∧ aligned (argReg s 2)) ∧
        ¬(0xFFFF < (argReg s 4).toNat ∨ 0xFFFF < (argReg s 5).toNat) ∧
        ¬(argReg s 5).toNat < (argReg s 4).toNat := by
  simp only [SetupOperandsOk, aligned_iff]
  omega

theorem not_ringFits_iff {np : BitVec 2} :
    allocFails s ((argReg s 5).toNat * bdSize np) = true ↔ ¬RingFits s np := by
  have hsize : ((argReg s 5).toNat : Int) * (4 * (1 + np.toNat)) =
      ((argReg s 5).toNat * bdSize np : Nat) := by
    rw [bdSize]
    push_cast
    rfl
  rw [allocFails, RingFits, hsize, decide_eq_true_iff]
  generalize (argReg s 5).toNat * bdSize np = size
  omega

theorem badNumPtr_iff {np : BitVec 2} : np ≠ 1#2 ∧ np ≠ 2#2 ↔ ¬(np = 1#2 ∨ np = 2#2) :=
  not_or.symm

theorem fatal_armRing (t : TaskId) (lastSlot status numBD : Word) :
    (s.armRing t lastSlot status numBD).fatal = s.fatal := by
  rw [armRing_eq]

theorem fatal_allocRing (t : TaskId) (np : BitVec 2) (apiConfig : Byte)
    (baseSlot startSlot maxBD : Word) :
    (s.allocRing t np apiConfig baseSlot startSlot maxBD).fatal = s.fatal := by
  rw [allocRing_eq]

/-- R196: a `BDSETUP` with a cause of the fatal stop raises it, and writes nothing else. -/
theorem exec_bdsetup_fatal {t : TaskId} {np : BitVec 2} {apiConfig : Byte} (hlive : s.fatal = false)
    (h : FatalCause s t np) :
    exec (.bdsetup t.val np apiConfig) s =
      .next (raiseFatal s (if np = 1#2 ∨ np = 2#2 then allocFail else badNumPtr)) := by
  obtain ⟨hok, hcause⟩ := h
  obtain ⟨hslots, hcounts, hle⟩ := setupOperandsOk_iff.mp hok
  rw [exec, execBdsetup, command_withTask_handle hlive]
  refine congrArg _ ((if_neg (not_not.mpr hslots)).trans ((if_neg hcounts).trans ((if_neg hle).trans ?_)))
  by_cases hnp : np = 1#2 ∨ np = 2#2
  · rw [if_pos hnp] at hcause
    obtain ⟨hbase, hmax, hfits⟩ := hcause
    rw [if_neg (mt badNumPtr_iff.mp (not_not.mpr hnp)), if_pos hbase, if_neg hmax,
      if_pos (not_ringFits_iff.mpr hfits), if_pos hnp]
  · rw [if_pos (badNumPtr_iff.mpr hnp), if_neg hnp]

/-- Past line 4 of R100 the causes of the table are those of its lines 8 and 15 to 17. -/
theorem bdsetupCause_iff {t : TaskId} {np : BitVec 2} {apiConfig : Byte} (hok : SetupOperandsOk s) :
    InvalidArgCause s (.bdsetup t.val np apiConfig) ↔
      (np = 1#2 ∨ np = 2#2) ∧
        if s.rt[t].base = 0#32 then argReg s 5 = 0#32
        else np ≠ s.rt[t].numPtr ∨ s.rt[t].capBD.toNat < (argReg s 4).toNat := by
  constructor
  · rintro (hrange | hbad | ⟨hnp, u, hu, hring⟩)
    · exact absurd t.isLt (Nat.not_lt.mpr hrange)
    · exact absurd hok hbad
    · obtain rfl : u = t := Fin.ext hu
      exact ⟨hnp, hring⟩
  · rintro ⟨hnp, hring⟩
    exact .inr (.inr ⟨hnp, t, rfl, hring⟩)

/-- The checks of lines 2 to 4 of R100. -/
theorem CommandEnd.of_operandChecks {a : State} (hcause : ¬SetupOperandsOk s → InvalidArgCause s i)
    (ha : SetupOperandsOk s → CommandEnd s i a) :
    CommandEnd s i
      (if ¬(aligned (argReg s 0) ∧ aligned (argReg s 1) ∧ aligned (argReg s 2)) then s.ret invalidArg
      else if 0xFFFF < (argReg s 4).toNat ∨ 0xFFFF < (argReg s 5).toNat then s.ret invalidArg
      else if (argReg s 5).toNat < (argReg s 4).toNat then s.ret invalidArg
      else a) := by
  rw [setupOperandsOk_iff] at hcause ha
  exact .of_check (fun hslots => hcause fun ⟨hok, _, _⟩ => hslots hok) fun hslots =>
    .of_check (fun hcounts => hcause fun ⟨_, hok, _⟩ => hok hcounts) fun hcounts =>
    .of_check (fun hle => hcause fun ⟨_, _, hok⟩ => hok hle) fun hle =>
    ha ⟨not_not.mp hslots, hcounts, hle⟩

/-- The checks of R100 in their order. -/
theorem commandEnd_bdsetup {t : Nat} {np : BitVec 2} {apiConfig : Byte}
    (h : exec (.bdsetup t np apiConfig) s = .next s') (hlive : s.fatal = false) :
    CommandEnd s (.bdsetup t np apiConfig) s' := by
  rw [exec, execBdsetup] at h
  refine .of_command h hlive (.of_withTask Or.inl fun u hu => ?_)
  subst hu
  refine .of_operandChecks (fun hbad => Or.inr (Or.inl hbad)) fun hok => ?_
  have hcause := bdsetupCause_iff (t := u) (np := np) (apiConfig := apiConfig) hok
  refine .of_ite (fun hbad => ?_) fun hgood => ?_
  · have hnp := badNumPtr_iff.mp hbad
    have hfatal : FatalCause s u np := ⟨hok, by rw [if_neg hnp]; trivial⟩
    simpa only [if_neg hnp] using CommandEnd.fatal (apiConfig := apiConfig) rfl hfatal
  have hnp : np = 1#2 ∨ np = 2#2 := not_not.mp (mt badNumPtr_iff.mpr hgood)
  refine .of_ite (fun hbase => ?_) fun hbase => ?_
  · rw [if_pos hbase] at hcause
    refine .of_check (fun hmax => hcause.mpr ⟨hnp, hmax⟩) fun hmax => .of_ite (fun hfits => ?_) fun _ => ?_
    · have hfatal : FatalCause s u np :=
        ⟨hok, by rw [if_pos hnp]; exact ⟨hbase, hmax, not_ringFits_iff.mp hfits⟩⟩
      simpa only [if_pos hnp] using CommandEnd.fatal (apiConfig := apiConfig) rfl hfatal
    · exact .value (fun hbad => hmax (hcause.mp hbad).2)
        ((fatal_armRing ..).trans ((fatal_allocRing ..).trans hlive)) noError_noErr
  · rw [if_neg hbase] at hcause
    refine .of_check (fun hptr => hcause.mpr ⟨hnp, .inl hptr⟩) fun hptr =>
      .of_check (fun hcap => hcause.mpr ⟨hnp, .inr hcap⟩) fun hcap => ?_
    exact .value (fun hbad => (hcause.mp hbad).2.elim hptr hcap) ((fatal_armRing ..).trans hlive)
      noError_noErr

/-! ## The other commands with causes of their own -/

theorem commandEnd_tstart {t ast : Nat} {ase ie : Bool} (h : exec (.tstart t ase ast ie) s = .next s')
    (hlive : s.fatal = false) : CommandEnd s (.tstart t ase ast ie) s' := by
  rw [exec, execTstart] at h
  refine .of_command h hlive (.of_withTask Or.inl fun u hu =>
    .of_check (fun hast => Or.inr (Or.inl hast)) fun hast =>
    .of_check (fun hcfg => Or.inr (Or.inr ⟨u, hu, hcfg⟩)) fun hcfg => .value ?_ hlive noError_noErr)
  rintro (hrange | hbad | ⟨v, hv, hbad⟩)
  · omega
  · exact hast hbad
  · obtain rfl : v = u := Fin.ext (hv.trans hu.symm)
    exact hcfg hbad

theorem commandEnd_bdreset {t : Nat} (h : exec (.bdreset t) s = .next s') (hlive : s.fatal = false) :
    CommandEnd s (.bdreset t) s' := by
  rw [exec, execBdreset] at h
  refine .of_command h hlive (.of_withTask Or.inl fun u hu =>
    .of_check (fun hbase => Or.inr ⟨u, hu, hbase⟩) fun hbase => .value ?_ hlive noError_noErr)
  rintro (hrange | ⟨v, hv, hbad⟩)
  · omega
  · obtain rfl : v = u := Fin.ext (hv.trans hu.symm)
    exact hbase hbad

theorem commandEnd_tcfg {g : Nat} {policy : Int} (h : exec (.tcfg g policy) s = .next s')
    (hlive : s.fatal = false) : CommandEnd s (.tcfg g policy) s' := by
  have hcause : InvalidArgCause s (.tcfg g policy) ↔ ¬(argReg s 0).toNat % 4 = 0 := Iff.rfl
  by_cases hslot : (argReg s 0).toNat % 4 = 0
  · rw [exec_tcfg_configures hlive hslot] at h
    obtain rfl := Host.Outcome.next.inj h
    refine .value (fun hbad => hcause.mp hbad hslot) ?_ (noError_ofNat (by omega))
    split <;> exact hlive
  · rw [exec_tcfg_refused hlive hslot] at h
    obtain rfl := Host.Outcome.next.inj h
    exact .refused hslot

/-- The list check of R140 reads every entry. -/
theorem drdAddresses_all_aligned_iff :
    (drdAddresses s.mem (argReg s 0) (argReg s 1).toNat).all aligned = true ↔
      ∀ i < (argReg s 1).toNat, (drdEntry s i).toNat % 4 = 0 := by
  simp only [drdAddresses, List.all_map, List.all_eq_true, List.mem_range, Function.comp_apply,
    aligned_iff]
  rfl

theorem commandEnd_drdpatch {init : BitVec 5} (h : exec (.drdpatch init) s = .next s')
    (hlive : s.fatal = false) : CommandEnd s (.drdpatch init) s' := by
  rw [exec, execDrdpatch] at h
  refine .of_command h hlive (.of_check ?_ fun hlist =>
    .of_check ?_ fun hentries => .value ?_ hlive noError_noErr)
  · rintro (hlist | hcount)
    · exact Or.inl (by simp [← aligned_iff, hlist])
    · exact Or.inr (Or.inl hcount)
  · intro hbad
    have hsome := mt drdAddresses_all_aligned_iff.mpr (Bool.eq_false_iff.mp hbad)
    obtain ⟨i, hi, hentry⟩ := not_forall₂.mp hsome
    exact Or.inr (Or.inr ⟨i, hi, hentry⟩)
  · obtain ⟨hslot, hcount⟩ := not_or.mp hlist
    rintro (hbad | hbad | ⟨i, hi, hbad⟩)
    · exact hslot (Bool.eq_false_iff.mpr (mt aligned_iff.mp hbad))
    · exact hcount hbad
    · exact hbad (drdAddresses_all_aligned_iff.mp (Bool.eq_true_of_not_eq_false hentries) i hi)

theorem commandEnd_ginstall {n : Nat} (h : exec (.ginstall n) s = .next s') (hlive : s.fatal = false) :
    CommandEnd s (.ginstall n) s' := by
  rw [exec, execGinstall] at h
  refine .of_command h hlive ?_
  split
  · next hn => exact .value (Nat.not_le_of_lt hn) hlive noError_noErr
  · next hn => exact .refused (Nat.le_of_not_lt hn)

theorem commandEnd_ghdone (h : exec .ghdone s = .next s') (hlive : s.fatal = false) :
    CommandEnd s .ghdone s' := by
  rw [exec, execGhdone] at h
  refine .of_command h hlive (.of_ite (fun hwait => ?_) fun hwait => ?_)
  · exact .value (fun hidle => Bool.false_ne_true (hidle.symm.trans hwait)) hlive noError_noErr
  · exact .refused (Bool.eq_false_iff.mpr hwait)

/-! ## The commands that answer an address -/

/-- R45: a BD is a whole number of words above the base. -/
theorem bdAddr_aligned {e : RingEntry} (n : Nat) (h : e.base.toNat % 4 = 0) :
    (bdAddr e n).toNat % 4 = 0 := by
  have hsize : n * bdSize e.numPtr = 4 * (n * (1 + e.numPtr.toNat)) := by
    rw [bdSize, Nat.mul_left_comm]
  rw [bdAddr, BitVec.toNat_add, BitVec.toNat_ofNat, hsize]
  omega

theorem commandEnd_bdget {t idx : Nat} (h : exec (.bdget t idx) s = .next s') (hlive : s.fatal = false) :
    CommandEnd s (.bdget t idx) s' := by
  rw [exec, execBdget] at h
  refine .of_command h hlive ?_
  cases taskHandle t with
  | none => exact .address id (.inl rfl) fun _ => rfl
  | some u =>
    exact .of_ite (fun _ => .address id (.inl rfl) fun _ => rfl)
      fun _ => .address id (.inl rfl) fun hbases => bdAddr_aligned idx (hbases u)

theorem commandEnd_bdring {t : Nat} (h : exec (.bdring t) s = .next s') (hlive : s.fatal = false) :
    CommandEnd s (.bdring t) s' := by
  rw [exec, execBdring] at h
  refine .of_command h hlive ?_
  cases taskHandle t with
  | none => exact .address id (.inr rfl) fun _ => rfl
  | some u =>
    exact .of_ite (fun _ => .address id (.inr rfl) fun _ => rfl)
      fun _ => .address id (.inr rfl) fun hbases => hbases u

/-! ## The commands that only answer -/

theorem commandEnd_tintstat {n : Nat} (h : exec (.tintstat n) s = .next s') (hlive : s.fatal = false) :
    CommandEnd s (.tintstat n) s' := by
  rw [exec, execTintstat] at h
  exact .of_command h hlive (.of_task Iff.rfl fun u hno =>
    .of_ite (fun _ => .value hno hlive (by decide)) fun _ =>
    .of_ite (fun _ => .value hno hlive (by decide)) fun _ =>
    .of_ite (fun _ => .value hno hlive (noError_ofNat (by omega))) fun _ =>
    .value hno hlive noError_noErr)

theorem commandEnd_tintpend {n : Nat} (h : exec (.tintpend n) s = .next s') (hlive : s.fatal = false) :
    CommandEnd s (.tintpend n) s' := by
  rw [exec, execTintpend] at h
  exact .of_command h hlive (.of_task Iff.rfl fun u hno =>
    .of_ite (fun _ => .value hno hlive (noError_ofNat (by omega))) fun _ =>
    .value hno hlive noError_noErr)

theorem commandEnd_tintsrc (h : exec .tintsrc s = .next s') (hlive : s.fatal = false) :
    CommandEnd s .tintsrc s' := by
  rw [exec, execTintsrc] at h
  refine .of_command h hlive (.of_ite (fun _ => .value id hlive (noError_setWidth _ (by decide))) fun _ => ?_)
  cases hscan : highestTask (effectivePending s) 16 with
  | none => exact .value id hlive noError_noErr
  | some t =>
    have ht : t < 16 := (highestTask_eq_some.mp hscan).1
    exact .value id hlive (noError_ofNat (by omega))

/-! ## All commands -/

/-- Every command ends in one of the five ways. -/
theorem commandEnd_exec (h : exec i s = .next s') (hlive : s.fatal = false) : CommandEnd s i s' := by
  unfold exec at h
  cases i with
  | bdsetup => exact commandEnd_bdsetup h hlive
  | tstart => exact commandEnd_tstart h hlive
  | bdreset => exact commandEnd_bdreset h hlive
  | tcfg => exact commandEnd_tcfg h hlive
  | drdpatch => exact commandEnd_drdpatch h hlive
  | ginstall => exact commandEnd_ginstall h hlive
  | ghdone => exact commandEnd_ghdone h hlive
  | bdget => exact commandEnd_bdget h hlive
  | bdring => exact commandEnd_bdring h hlive
  | tintstat => exact commandEnd_tintstat h hlive
  | tintpend => exact commandEnd_tintpend h hlive
  | tintsrc => exact commandEnd_tintsrc h hlive
  | tstop | tseti | szset =>
    exact .of_command h hlive (.of_task Iff.rfl fun _ hno => .value hno hlive noError_noErr)
  | tstat | bdinuse =>
    exact .of_command h hlive (.of_task Iff.rfl fun _ hno =>
      .value hno hlive (noError_setWidth _ (by decide)))
  | bdassign | bdrelease =>
    exact .of_command h hlive (.of_task Iff.rfl fun _ hno =>
      .of_ite (fun _ => .error hno (by decide)) fun _ => .of_ite (fun _ => .error hno (by decide)) fun _ =>
      .value hno hlive (noError_setWidth _ (by decide)))
  | tintclr | girqen | girqdis =>
    exact .of_command h hlive (.of_source Iff.rfl hlive noError_noErr)
  | apiinit =>
    exact .of_command h hlive (.of_ite (fun _ => .error id (by decide)) fun _ =>
      .value id hlive noError_noErr)
  | ginit =>
    exact .of_command h hlive (.of_ite (fun _ => .value id hlive noError_noErr) fun _ =>
      .value id hlive noError_noErr)

/-! ## What the ends say of `FATAL` and `RES` -/

/-- R196: the fatal stop has its two causes. -/
theorem CommandEnd.fatalCause (h : CommandEnd s i s') (hlive : s.fatal = false)
    (hfatal : s'.fatal = true) :
    ∃ (t : TaskId) (np : BitVec 2) (c : Byte), i = .bdsetup t.val np c ∧ FatalCause s t np := by
  cases h with
  | fatal setup cause => exact ⟨_, _, _, setup, cause⟩
  | value _ live _ =>
    rw [State.ret_fatal, live] at hfatal
    cases hfatal
  | refused | error | address =>
    rw [State.ret_fatal, hlive] at hfatal
    cases hfatal

theorem otherErrors_ne {v : Word} (h : v ∈ otherErrors) : v ≠ invalidArg ∧ v ≠ taskRunning := by
  simp only [otherErrors, List.mem_cons, List.not_mem_nil, or_false] at h
  rcases h with rfl | rfl | rfl | rfl | rfl <;> decide

/-- A value that is no error differs from every code below -1. -/
theorem ne_of_noError {v w : Word} (hv : -1 ≤ v.toInt) (hw : w.toInt ≤ -2) : v ≠ w := by
  rintro rfl
  omega

/-- R182: without a fatal stop, `INVALID_ARG` is left for a cause of the table and for nothing else. -/
theorem CommandEnd.res_eq_invalidArg_iff (h : CommandEnd s i s') (hlive : s'.fatal = false)
    (hbases : ∀ t : TaskId, s.rt[t].base.toNat % 4 = 0) :
    s'.res = invalidArg ↔ InvalidArgCause s i := by
  cases h with
  | refused cause => exact iff_of_true rfl cause
  | error noCause code => exact iff_of_false (otherErrors_ne code).1 noCause
  | address noCause getter aligned =>
    refine iff_of_false (fun hres => ?_) noCause
    have haligned : invalidArg.toNat % 4 = 0 := hres ▸ aligned hbases
    exact absurd haligned (by decide)
  | value noCause live noError => exact iff_of_false (ne_of_noError noError (by decide)) noCause
  | fatal => cases hlive

/-- R188: without a fatal stop, a code of -2 or below is all that a command wrote. -/
theorem CommandEnd.eq_ret_of_error (h : CommandEnd s i s') (hlive : s'.fatal = false)
    (herror : s'.res.toInt ≤ -2) : s' = s.ret s'.res := by
  cases h with
  | refused | error | address => rfl
  | value _ _ noError =>
    have := noError.trans herror
    omega
  | fatal => cases hlive

/-- R187. -/
theorem CommandEnd.res_ne_taskRunning (h : CommandEnd s i s') (hlive : s'.fatal = false)
    (hget : instrOp i ≠ .bdget) (hring : instrOp i ≠ .bdring) : s'.res ≠ taskRunning := by
  cases h with
  | refused => exact (by decide : invalidArg ≠ taskRunning)
  | error _ code => exact (otherErrors_ne code).2
  | address _ getter _ => exact absurd getter (not_or.mpr ⟨hget, hring⟩)
  | value _ _ noError => exact ne_of_noError noError (by decide)
  | fatal => cases hlive

/-- The causes look at neither the schedule nor `CMD`. -/
theorem invalidArgCause_latched (rest : List Input) (w : Word) :
    InvalidArgCause { s with inputs := rest, cmd := w } i ↔ InvalidArgCause s i :=
  Iff.rfl

end

/-- Settles O11: `CommandEnd.fatalCause` one way, and `exec_bdsetup_fatal` the other with the state left. -/
theorem fatalHasTwoCauses : Obligations.FatalHasTwoCauses := by
  unfold Obligations.FatalHasTwoCauses
  intro i s s' hlive hexec
  have hraised : ∀ (t : TaskId) (np : BitVec 2) (c : Byte), i = .bdsetup t.val np c →
      FatalCause s t np → s' = raiseFatal s (if np = 1#2 ∨ np = 2#2 then allocFail else badNumPtr) := by
    rintro t np c rfl hcause
    exact Host.Outcome.next.inj (hexec.symm.trans (exec_bdsetup_fatal hlive hcause))
  have hcause := (commandEnd_exec hexec hlive).fatalCause hlive
  refine ⟨⟨hcause, ?_⟩, fun hfatal t np c hi => ?_⟩
  · rintro ⟨t, np, c, hi, hcause⟩
    rw [hraised t np c hi hcause, raiseFatal_fatal]
  · obtain ⟨u, np', c', hi', hcause⟩ := hcause hfatal
    obtain ⟨hu, rfl, rfl⟩ := Instr.bdsetup.inj (hi.symm.trans hi')
    obtain rfl := Fin.ext hu
    exact hraised t np c hi hcause

/-- Settles O46: an illegal word is refused, and a command's end tells whether it had a cause. -/
theorem invalidArgHasTheListedCauses : Obligations.InvalidArgHasTheListedCauses := by
  unfold Obligations.InvalidArgHasTheListedCauses
  intro s s' w rest hcmd hlive hbases hstep hlive'
  rw [step_cmd hcmd hlive] at hstep
  cases hdecode : decode w with
  | error e =>
    rw [runWord_error hdecode] at hstep
    obtain rfl := Host.Outcome.next.inj hstep
    exact iff_of_true rfl trivial
  | ok i =>
    rw [runWord, hdecode] at hstep
    exact ((commandEnd_exec hstep hlive).res_eq_invalidArg_iff hlive' hbases).trans
      (invalidArgCause_latched rest w)

/-- Settles O47: the ends of a command, and the order of the checks of `BDASSIGN` and `BDRELEASE`. -/
theorem errorResultChangesOnlyRes : Obligations.ErrorResultChangesOnlyRes := by
  unfold Obligations.ErrorResultChangesOnlyRes
  refine ⟨fun i s s' hexec hlive hlive' => ?_, fun s t hlive hfull _ => ?_, fun s t hlive hempty _ => ?_,
    fun i s s' hexec hlive hlive' => ?_⟩
  · exact (commandEnd_exec hexec hlive).eq_ret_of_error hlive'
  · exact exec_bdassign_full hlive hfull
  · exact exec_bdrelease_empty hlive hempty
  · exact (commandEnd_exec hexec hlive).res_ne_taskRunning hlive'

end Sys2Proof.Proofs
end

section
/-! PROOF. The two directions of the encoding (`30_encoding.md` R61 to R67): the word of a well-formed
command is read back, and a word that decodes is the one spelling of its command. -/

namespace Sys2Proof.Proofs

open Sys2Proof.Machine

/-! ## The word of a command spells its opcode -/

theorem encodesFormat (i : Instr) : Sys2Proof.Laws.EncodesFormat.Statement i := by
  open Sys2Proof.Laws.EncodesFormat in
  cases i with
  | apiinit => exact apiinit _
  | tstart => exact tstart _ _ _ _
  | tstop => exact tstop _
  | tstat => exact tstat _
  | bdsetup => exact bdsetup _ _ _
  | bdassign => exact bdassign _
  | bdrelease => exact bdrelease _
  | bdreset => exact bdreset _
  | bdget => exact bdget _ _
  | bdring => exact bdring _
  | bdinuse => exact bdinuse _
  | tcfg => exact tcfg _ _
  | tseti => exact tseti _ _ _
  | drdpatch => exact drdpatch _
  | szset => exact szset _ _ _
  | tintclr => exact tintclr _
  | tintstat => exact tintstat _
  | tintpend => exact tintpend _
  | tintsrc => exact tintsrc
  | ginit => exact ginit
  | girqen => exact girqen _
  | girqdis => exact girqdis _
  | ginstall => exact ginstall _
  | ghdone => exact ghdone

/-! ## From the command to its word and back -/

theorem immField_encode (i : Instr) : immField (encode i) = instrImm i :=
  Laws.immField_assembled _ _ _

/-- `TID` comes back whole where it fits its eight bits. -/
theorem tidField_encode {i : Instr} (h : instrTid i < 2 ^ 8) : tidField (encode i) = instrTid i := by
  rw [encode, Laws.tidField_assembled, BitVec.toNat_ofNat, Nat.mod_eq_of_lt h]

theorem extractLsb'_encode (i : Instr) {start len : Nat} (h : start + len ≤ 16) :
    (encode i).extractLsb' start len = (instrImm i).extractLsb' start len :=
  BitVec.extractLsb'_append_eq_of_add_le h

theorem getLsbD_encode (i : Instr) {k : Nat} (h : k < 16) :
    (encode i).getLsbD k = (instrImm i).getLsbD k :=
  Laws.assembled_low _ _ _ h

/-- A flag at the foot of a field. -/
theorem getLsbD_append_ofBool {n : Nat} (x : BitVec n) (b : Bool) :
    (x ++ BitVec.ofBool b).getLsbD 0 = b := by
  rw [BitVec.getLsbD_append, if_pos (by decide)]
  cases b <;> rfl

theorem instrTid_lt {i : Instr} (h : i.wellFormed = true) : instrTid i < 2 ^ 8 := by
  cases i <;> simp_all [Instr.wellFormed, instrTid]

/-- The operands of a well-formed command are read back from the fields of its word. -/
theorem operands_encode {i : Instr} (h : i.wellFormed = true) : operands (instrOp i) (encode i) = i := by
  have htid : tidField (encode i) = instrTid i := tidField_encode (instrTid_lt h)
  cases i with
  | apiinit vm =>
    rw [instrOp, operands, getLsbD_encode _ (by decide), instrImm, getLsbD_append_ofBool]
  | tstart t ase ast ie =>
    have hast : ast < 2 ^ 8 := by simp_all [Instr.wellFormed]
    have hie : (encode (.tstart t ase ast ie)).getLsbD 0 = ie := by
      rw [getLsbD_encode _ (by decide), instrImm, getLsbD_append_ofBool]
    have hase : (encode (.tstart t ase ast ie)).getLsbD 1 = ase := by
      rw [getLsbD_encode _ (by decide), instrImm, BitVec.getLsbD_append, if_neg (by decide)]
      exact getLsbD_append_ofBool ..
    have hfield : (encode (.tstart t ase ast ie)).extractLsb' 8 8 = BitVec.ofNat 8 ast := by
      rw [extractLsb'_encode _ (by decide), instrImm, BitVec.extractLsb'_append_eq_of_le (by decide),
        BitVec.extractLsb'_append_eq_of_le (by decide)]
      exact BitVec.extractLsb'_append_eq_left
    rw [instrOp, operands, htid, hase, hie, hfield, BitVec.toNat_ofNat, Nat.mod_eq_of_lt hast, instrTid]
  | bdsetup t np apiConfig =>
    rw [instrOp, operands, htid, extractLsb'_encode _ (by decide), extractLsb'_encode _ (by decide),
      instrImm, BitVec.extractLsb'_append_eq_right, BitVec.extractLsb'_append_eq_of_le (by decide),
      BitVec.extractLsb'_append_eq_left, instrTid]
  | bdget t idx =>
    have hidx : idx < 2 ^ 16 := by simp_all [Instr.wellFormed]
    rw [instrOp, operands, htid, immField_encode, instrImm, BitVec.toNat_ofNat, Nat.mod_eq_of_lt hidx,
      instrTid]
  | tcfg g p =>
    have hp : -2 ^ 15 ≤ p ∧ p < 2 ^ 15 := by simp_all [Instr.wellFormed]
    rw [instrOp, operands, htid, immField_encode, instrImm,
      BitVec.toInt_ofInt_eq_self (by decide) hp.1 hp.2, instrTid]
  | tseti t init hold =>
    rw [instrOp, operands, htid, getLsbD_encode _ (by decide), extractLsb'_encode _ (by decide),
      instrImm, getLsbD_append_ofBool, BitVec.extractLsb'_append_eq_of_le (by decide),
      BitVec.extractLsb'_append_eq_of_le (by decide), BitVec.extractLsb'_append_eq_right, instrTid]
  | drdpatch init =>
    rw [instrOp, operands, extractLsb'_encode _ (by decide), instrImm,
      BitVec.extractLsb'_append_eq_right]
  | szset t src dst =>
    rw [instrOp, operands, htid, extractLsb'_encode _ (by decide), extractLsb'_encode _ (by decide),
      instrImm, BitVec.extractLsb'_append_eq_right, BitVec.extractLsb'_append_eq_of_le (by decide),
      BitVec.extractLsb'_append_eq_right, instrTid]
  | tintsrc | ginit | ghdone => rfl
  | tstop | tstat | bdassign | bdrelease | bdreset | bdring | bdinuse | tintclr | tintstat | tintpend
  | girqen | girqdis | ginstall => rw [instrOp, operands, htid, instrTid]

theorem decode_encode {i : Instr} (h : i.wellFormed = true) : decode (encode i) = .ok i :=
  decode_eq_ok_iff.mpr ⟨instrOp i, encodesFormat i, (operands_encode h).symm⟩

/-- Settles O1: the word of a command spells its opcode (`encodesFormat`) and holds its operands
(`operands_encode`). -/
theorem encodedCommandDecodesToItself : Obligations.EncodedCommandDecodesToItself := by
  unfold Obligations.EncodedCommandDecodesToItself
  exact fun i => decode_encode

theorem decode_of_encode_eq {i : Instr} {w : Word} (h : encode i = w) (hwf : i.wellFormed = true) :
    decode w = .ok i :=
  h ▸ decode_encode hwf

/-- Settles O5: each word is the encoding of the command beside it. -/
theorem wordsOfTheVectorsDecode : Obligations.WordsOfTheVectorsDecode := by
  unfold Obligations.WordsOfTheVectorsDecode
  refine ⟨?_, ?_, ?_, ?_, ?_, ?_, ?_, ?_, ?_⟩
  all_goals exact decode_of_encode_eq (by decide) (by decide)

/-! ## From the word to its command and back -/

/-- A must-be-zero field of a word of its row is 0. -/
theorem extractLsb'_of_mbz {w m : Word} (h : w &&& m = 0#32) {start len : Nat}
    (hm : m.extractLsb' start len = BitVec.allOnes len) : w.extractLsb' start len = 0#len := by
  have hfield := congrArg (BitVec.extractLsb' start len) h
  rwa [BitVec.extractLsb'_and, hm, BitVec.and_allOnes, BitVec.extractLsb'_zero] at hfield

/-- Neighbouring fields of a word are one field. -/
theorem extractLsb'_append (w : Word) (start m n : Nat) :
    w.extractLsb' (start + n) m ++ w.extractLsb' start n = w.extractLsb' start (m + n) := by
  refine BitVec.eq_of_getLsbD_eq fun k hk => ?_
  rw [BitVec.getLsbD_append]
  simp only [BitVec.getLsbD_extractLsb', hk, decide_true]
  split
  · next hlow => simp [hlow]
  · next hlow => 
    have hm : k - n < m := by omega
    rw [show start + n + (k - n) = start + k by omega]
    simp [hm]

/-- A flag of the word is a field of one bit. -/
theorem ofBool_getLsbD (w : Word) (k : Nat) : BitVec.ofBool (w.getLsbD k) = w.extractLsb' k 1 := by
  refine BitVec.eq_of_getLsbD_eq fun j hj => ?_
  obtain rfl : j = 0 := by omega
  cases hbit : w.getLsbD k <;> simp [hbit, BitVec.getLsbD_extractLsb', -BitVec.getLsbD_eq_getElem]

section
variable {o : Op} {w : Word}

/-- The sixteen bits the encoder writes are the word's: its operands fill the fields, and what is left is
must-be-zero. -/
theorem instrImm_operands (h : w &&& mbzBits (opFormat o) = 0#32) :
    instrImm (operands o w) = immField w := by
  cases o with
  | bdget => exact (BitVec.ofNat_toNat ..).trans (BitVec.setWidth_eq ..)
  | tcfg => exact BitVec.ofInt_toInt
  | apiinit =>
    have hzero : w.extractLsb' 1 15 = 0#15 := extractLsb'_of_mbz h rfl
    rw [operands, instrImm, ofBool_getLsbD, ← hzero]
    exact extractLsb'_append w 0 15 1
  | tstart =>
    have hzero : w.extractLsb' 2 6 = 0#6 := extractLsb'_of_mbz h rfl
    rw [operands, instrImm, ofBool_getLsbD, ofBool_getLsbD, ← hzero, BitVec.ofNat_toNat,
      BitVec.setWidth_eq, extractLsb'_append w 2 8 6, extractLsb'_append w 1 14 1]
    exact extractLsb'_append w 0 15 1
  | bdsetup =>
    have hzero : w.extractLsb' 2 6 = 0#6 := extractLsb'_of_mbz h rfl
    rw [operands, instrImm, ← hzero, extractLsb'_append w 2 8 6]
    exact extractLsb'_append w 0 14 2
  | tseti =>
    have hhigh : w.extractLsb' 13 3 = 0#3 := extractLsb'_of_mbz h rfl
    have hlow : w.extractLsb' 1 7 = 0#7 := extractLsb'_of_mbz h rfl
    rw [operands, instrImm, ofBool_getLsbD, ← hhigh, ← hlow, extractLsb'_append w 8 3 5,
      extractLsb'_append w 1 8 7]
    exact extractLsb'_append w 0 15 1
  | drdpatch =>
    have hzero : w.extractLsb' 5 11 = 0#11 := extractLsb'_of_mbz h rfl
    rw [operands, instrImm, ← hzero]
    exact extractLsb'_append w 0 11 5
  | szset =>
    have hzero : w.extractLsb' 4 12 = 0#12 := extractLsb'_of_mbz h rfl
    rw [operands, instrImm, ← hzero, extractLsb'_append w 2 12 2]
    exact extractLsb'_append w 0 14 2
  | _ => exact (extractLsb'_of_mbz h rfl).symm

/-- The formats with no `TID` have its bits zero; the others hold it. -/
theorem instrTid_operands (h : w &&& mbzBits (opFormat o) = 0#32) :
    instrTid (operands o w) = tidField w := by
  cases o with
  | apiinit | drdpatch | tintsrc | ginit | ghdone =>
    have hzero : w.extractLsb' 16 8 = 0#8 := extractLsb'_of_mbz h rfl
    rw [tidField, hzero]
    rfl
  | _ => rfl

theorem encode_operands (h : Spells w o) : encode (operands o w) = w := by
  obtain ⟨hop, hmbz⟩ := h
  rw [encode, instrOp_operands, ← hop, instrTid_operands hmbz, instrImm_operands hmbz, opField,
    tidField, immField, BitVec.ofNat_toNat, BitVec.setWidth_eq, extractLsb'_append w 16 8 8]
  exact (extractLsb'_append w 0 16 16).trans BitVec.extractLsb'_eq_self

end

theorem wellFormed_operands (o : Op) (w : Word) : (operands o w).wellFormed = true := by
  have htid : tidField w < 2 ^ 8 := (w.extractLsb' 16 8).isLt
  have hast : (w.extractLsb' 8 8).toNat < 2 ^ 8 := (w.extractLsb' 8 8).isLt
  have hidx : (immField w).toNat < 2 ^ 16 := (immField w).isLt
  have hlow : -2 ^ 15 ≤ (immField w).toInt := BitVec.le_toInt _
  have hhigh : (immField w).toInt < 2 ^ 15 := BitVec.toInt_lt
  cases o with
  | apiinit | drdpatch | tintsrc | ginit | ghdone => rfl
  | tstart => simp only [operands, Instr.wellFormed, htid, hast, decide_true, Bool.and_self]
  | bdget => simp only [operands, Instr.wellFormed, htid, hidx, decide_true, Bool.and_self]
  | tcfg => simp only [operands, Instr.wellFormed, htid, hlow, hhigh, decide_true, Bool.and_self]
  | _ => exact decide_eq_true htid

/-- Settles O2: a decoded word spells its opcode, so its fields are the encoder's. -/
theorem decodedWordIsItsEncoding : Obligations.DecodedWordIsItsEncoding := by
  unfold Obligations.DecodedWordIsItsEncoding
  intro w i hdecode
  obtain ⟨o, hspells, rfl⟩ := decode_eq_ok_iff.mp hdecode
  exact ⟨wellFormed_operands o w, encode_operands hspells⟩

end Sys2Proof.Proofs
end

section
/-! PROOF. What a command writes and how a move ends: the access matrix (`10_state.md` R33), the gate of
`30_encoding.md` R60 and the fatal stop (`60_exceptions.md` R195). -/

namespace Sys2Proof.Proofs

open Sys2Proof.Machine

/-! ## Rules for what a command leaves -/

section
variable {P : State → Prop} {s s' : State}

theorem ite_leaves {c : Prop} [Decidable c] {a b : State} (ha : P a) (hb : P b) :
    P (if c then a else b) := by
  split
  · exact ha
  · exact hb

theorem withTask_leaves {t : Nat} {body : TaskId → State} (hret : P (s.ret invalidArg))
    (hbody : ∀ u, P (body u)) : P (withTask t s body) := by
  unfold withTask
  cases taskHandle t with
  | none => exact hret
  | some u => exact hbody u

theorem command_leaves {body : State → State} (h : command s body = .next s') (hstopped : P s)
    (hbody : P (body s)) : P s' := by
  rcases command_next_iff.mp h with ⟨-, rfl⟩ | ⟨-, rfl⟩
  · exact hstopped
  · exact hbody

end

/-! ## The access matrix -/

/-- The row of `o` in the access matrix: `s'` is `s` but for the columns with a "w" there, and `RES`. -/
def WritesOnly (s : State) (o : Op) (s' : State) : Prop :=
  match o with
  | .apiinit => s' = { s with
      res := s'.res, mbar := s'.mbar, physOffset := s'.physOffset, apiInit := s'.apiInit }
  | .tstart => s' = { s with res := s'.res, tcr := s'.tcr, imr := s'.imr, runFlag := s'.runFlag }
  | .tstop => s' = { s with res := s'.res, tcr := s'.tcr, runFlag := s'.runFlag }
  | .tstat => s' = { s with res := s'.res, ret1 := s'.ret1 }
  | .bdsetup => s' = { s with
      res := s'.res, rt := s'.rt, allocPtr := s'.allocPtr, engCur := s'.engCur, mem := s'.mem,
      fatal := s'.fatal, fatalReason := s'.fatalReason }
  | .bdassign => s' = { s with res := s'.res, rt := s'.rt, mem := s'.mem }
  | .bdrelease => s' = { s with res := s'.res, ret1 := s'.ret1, rt := s'.rt }
  | .bdreset => s' = { s with res := s'.res, rt := s'.rt, engCur := s'.engCur, mem := s'.mem }
  | .tcfg => s' = { s with
      res := s'.res, runFlag := s'.runFlag, configured := s'.configured, mem := s'.mem, tcr := s'.tcr }
  | .tseti => s' = { s with res := s'.res, tcr := s'.tcr }
  | .drdpatch => s' = { s with res := s'.res, ret1 := s'.ret1, mem := s'.mem }
  | .szset => s' = { s with res := s'.res, sz := s'.sz }
  | .tintclr => s' = { s with res := s'.res, ipr := s'.ipr }
  | .ginit => s' = { s with res := s'.res, ht := s'.ht, glueInit := s'.glueInit }
  | .girqen | .girqdis => s' = { s with res := s'.res, imr := s'.imr }
  | .ginstall => s' = { s with res := s'.res, ht := s'.ht }
  | .ghdone => s' = { s with res := s'.res, dmxWait := s'.dmxWait }
  | .bdget | .bdring | .bdinuse | .tintstat | .tintpend | .tintsrc => s' = { s with res := s'.res }

section
variable {s s' : State}

theorem writesOnly_laterSetup (t : TaskId) (lastSlot status numBD v : Word) :
    WritesOnly s .bdsetup ((s.armRing t lastSlot status numBD).ret v) := by
  rw [armRing_eq]
  rfl

theorem writesOnly_firstSetup (t : TaskId) (np : BitVec 2) (apiConfig : Byte)
    (baseSlot startSlot maxBD lastSlot status numBD v : Word) :
    WritesOnly s .bdsetup (((s.allocRing t np apiConfig baseSlot startSlot maxBD).armRing t lastSlot
      status numBD).ret v) := by
  rw [armRing_eq, allocRing_eq]
  rfl

/-- Every command keeps to its row; the terms follow the checks of each rule. -/
theorem exec_writesOnly {i : Instr} (h : exec i s = .next s') : WritesOnly s (instrOp i) s' := by
  unfold exec at h
  cases i with
  | tstop | tstat | bdinuse | tseti | szset =>
    exact command_leaves h rfl (withTask_leaves rfl fun _ => rfl)
  | bdreset | tintpend =>
    exact command_leaves h rfl (withTask_leaves rfl fun _ => ite_leaves rfl rfl)
  | tstart | bdassign | bdrelease =>
    exact command_leaves h rfl (withTask_leaves rfl fun _ => ite_leaves rfl (ite_leaves rfl rfl))
  | tintstat =>
    exact command_leaves h rfl (withTask_leaves rfl fun _ =>
      ite_leaves rfl (ite_leaves rfl (ite_leaves rfl rfl)))
  | bdsetup =>
    refine command_leaves h rfl (withTask_leaves rfl fun _ => ?_)
    refine ite_leaves rfl (ite_leaves rfl (ite_leaves rfl (ite_leaves rfl (ite_leaves ?_ ?_))))
    · exact ite_leaves rfl (ite_leaves rfl (writesOnly_firstSetup ..))
    · exact ite_leaves rfl (ite_leaves rfl (writesOnly_laterSetup ..))
  | apiinit | ginit | tintclr | girqen | girqdis | ghdone =>
    exact command_leaves h rfl (ite_leaves rfl rfl)
  | drdpatch => exact command_leaves h rfl (ite_leaves rfl (ite_leaves rfl rfl))
  | tcfg =>
    refine command_leaves h rfl (ite_leaves rfl ?_)
    split <;> simp only [instrOp, WritesOnly, State.ret, State.setTcr, State.memWrite,
      State.setConfigured, State.setRunFlag]
  | ginstall i =>
    refine command_leaves h rfl ?_
    split <;> rfl
  | bdget t | bdring t =>
    refine command_leaves h rfl ?_
    cases taskHandle t with
    | none => rfl
    | some u => exact ite_leaves rfl rfl
  | tintsrc =>
    refine command_leaves h rfl (ite_leaves rfl ?_)
    cases highestTask (effectivePending s) 16 with
    | none => rfl
    | some t => rfl

/-- Settles O49: the row of each command, read column by column. -/
theorem commandsWriteOnlyTheirColumns : Obligations.CommandsWriteOnlyTheirColumns := by
  unfold Obligations.CommandsWriteOnlyTheirColumns
  intro i s s' hexec
  have hrow := exec_writesOnly hexec
  cases i
  all_goals
    rw [hrow]
    simp [instrOp]

end

/-! ## The port -/

/-- Settles O7: with `FATAL` = 0 a write of `CMD` runs its word, which decodes to `i`. -/
theorem stepRunsTheDecodedCommand : Obligations.StepRunsTheDecodedCommand := by
  unfold Obligations.StepRunsTheDecodedCommand
  intro s w rest i hcmd hlive hdecode
  rw [step_cmd hcmd hlive, runWord, hdecode]

/-- Settles O8: an argument write is `writeArg`, and an empty schedule has no move. -/
theorem stepWritesArgumentsAndIdles : Obligations.StepWritesArgumentsAndIdles := by
  unfold Obligations.StepWritesArgumentsAndIdles
  exact ⟨fun s n v rest harg => step_cons harg, fun s hidle => step_idle hidle⟩

/-! ## How a move ends -/

/-- How the move `m` ends in `s`, when it answers a next state. -/
inductive MoveEnd (s : State) : Input → State → Prop where
  /-- R60. -/
  | stopped {w : Word} (fatal : s.fatal = true) : MoveEnd s (.cmd w) s
  /-- R67. -/
  | illegal {w : Word} {e : DecodeError} (error : decode w = .error e) :
      MoveEnd s (.cmd w) (({ s with cmd := w } : State).ret invalidArg)
  | command {w : Word} {i : Instr} {s' : State} (live : s.fatal = false) (decoded : decode w = .ok i)
      (ran : exec i { s with cmd := w } = .next s') : MoveEnd s (.cmd w) s'
  | engine {e : EngineEvent} {s' : State} (moved : engineMove e s = some s') : MoveEnd s (.engine e) s'
  | demux {s' : State} (moved : demuxStep s = some s') : MoveEnd s .demux s'
  /-- A move whose precondition fails (log 2). -/
  | dropped {m : Input} (disabled : (∃ e, m = .engine e) ∨ m = .demux) : MoveEnd s m s
  | reset : MoveEnd s .reset (resetInput s)
  | arg (n : Fin 6) (v : Word) : MoveEnd s (.arg n v) (writeArg n v s)
  | prio (i : Fin 32) (b : Byte) : MoveEnd s (.prio i b) (s.setPrio i b)
  | storeWord (a v : Word) : MoveEnd s (.storeWord a v) { s with mem := s.mem.writeWord a v }
  | storeByte (a : Word) (b : Byte) : MoveEnd s (.storeByte a b) { s with mem := s.mem.writeByte a b }

section
variable {s s' : State} {m : Input}

theorem moveEnd_writeCmd {w : Word} (h : writeCmd w s = .next s') : MoveEnd s (.cmd w) s' := by
  unfold writeCmd at h
  split at h
  · next hfatal =>
    obtain rfl := Host.Outcome.next.inj h
    exact .stopped hfatal
  · next hlive =>
    cases hdecode : decode w with
    | error e =>
      rw [runWord_error hdecode] at h
      obtain rfl := Host.Outcome.next.inj h
      exact .illegal hdecode
    | ok i =>
      rw [runWord, hdecode] at h
      exact .command (Bool.eq_false_iff.mpr hlive) hdecode h

theorem moveEnd_applyInput (h : applyInput m s = .next s') : MoveEnd s m s' := by
  cases m with
  | cmd w => exact moveEnd_writeCmd h
  | engine e =>
    obtain rfl := Host.Outcome.next.inj h
    cases hmove : engineMove e s with
    | none => exact .dropped (.inl ⟨e, rfl⟩)
    | some s' => exact .engine hmove
  | demux =>
    obtain rfl := Host.Outcome.next.inj h
    cases hmove : demuxStep s with
    | none => exact .dropped (.inr rfl)
    | some s' => exact .demux hmove
  | reset =>
    obtain rfl := Host.Outcome.next.inj h
    exact .reset
  | arg n v =>
    obtain rfl := Host.Outcome.next.inj h
    exact .arg n v
  | prio i b =>
    obtain rfl := Host.Outcome.next.inj h
    exact .prio i b
  | storeWord a v =>
    obtain ⟨-, rfl⟩ := storeWord_next_iff.mp h
    exact .storeWord a v
  | storeByte a b =>
    obtain ⟨-, rfl⟩ := storeByte_next_iff.mp h
    exact .storeByte a b

/-- A step is idle or makes the first move of the schedule. -/
theorem moveEnd_step (h : step s = .next s') :
    (s.inputs = [] ∧ s' = s) ∨
      ∃ m rest, s.inputs = m :: rest ∧ MoveEnd { s with inputs := rest } m s' := by
  cases hinputs : s.inputs with
  | nil =>
    rw [step_idle hinputs] at h
    exact .inl ⟨rfl, (Host.Outcome.next.inj h).symm⟩
  | cons m rest =>
    rw [step_cons hinputs] at h
    exact .inr ⟨m, rest, rfl, moveEnd_applyInput h⟩

/-! ## The fatal stop -/

/-- R60, R66: every command starts with the gate. -/
theorem exec_eq_command (i : Instr) : ∃ body, ∀ s, exec i s = command s body := by
  unfold exec
  cases i <;> exact ⟨_, fun _ => rfl⟩

theorem exec_stopped (i : Instr) (h : s.fatal = true) : exec i s = .next s := by
  obtain ⟨body, hbody⟩ := exec_eq_command i
  rw [hbody, command_stopped h]

theorem ite_eq_map {c : Prop} [Decidable c] {f : State → State} {a a' b b' : Option State}
    (ha : a' = a.map f) (hb : b' = b.map f) :
    (if c then a' else b') = (if c then a else b).map f := by
  split
  · exact ha
  · exact hb

/-- The engine does not look at `FATAL`. -/
theorem engineMove_fatal (e : EngineEvent) (s : State) (b : Bool) :
    engineMove e { s with fatal := b } = (engineMove e s).map fun s' => { s' with fatal := b } := by
  cases e with
  | int t | tea t | dbg => rfl
  | done t => exact ite_eq_map (ite_eq_map rfl rfl) rfl
  | selfDis t => exact ite_eq_map rfl rfl
  | bdDone t status => exact ite_eq_map rfl rfl

theorem demuxScan_fatal (s : State) (b : Bool) :
    demuxScan { s with fatal := b } = (demuxScan s).map fun s' => { s' with fatal := b } := by
  refine ite_eq_map ?_ rfl
  simp only
  cases nextSource s.dmxSnap s.dmxIdx.toNat with
  | none => rfl
  | some i => exact ite_eq_map rfl rfl

/-- The demultiplexer does not look at `FATAL`. -/
theorem demuxStep_fatal (s : State) (b : Bool) :
    demuxStep { s with fatal := b } = (demuxStep s).map fun s' => { s' with fatal := b } :=
  ite_eq_map (demuxScan_fatal s b) (ite_eq_map rfl rfl)

/-- A move that does not look at `FATAL` keeps it. -/
theorem fatal_kept_of_map {f : State → Option State}
    (hmap : ∀ b, f { s with fatal := b } = (f s).map fun s' => { s' with fatal := b })
    (h : f s = some s') : s'.fatal = s.fatal := by
  have hself := hmap s.fatal
  rw [show ({ s with fatal := s.fatal } : State) = s from rfl, h, Option.map_some] at hself
  rw [Option.some.inj hself]

/-- R195: after a fatal stop only reset clears `FATAL`. -/
theorem MoveEnd.reset_of_fatal_cleared (h : MoveEnd s m s') (hfatal : s.fatal = true)
    (hlive : s'.fatal = false) : m = .reset := by
  have hkept : s'.fatal = s.fatal → m = .reset := fun hkept =>
    absurd (hkept.symm.trans hlive) (by simp [hfatal])
  cases h with
  | reset => rfl
  | command live => exact absurd (live.symm.trans hfatal) (by decide)
  | engine moved => exact hkept (fatal_kept_of_map (engineMove_fatal _ s) moved)
  | demux moved => exact hkept (fatal_kept_of_map (demuxStep_fatal s) moved)
  | _ => exact hkept rfl

end

/-- Settles O10: the gates of R60 and R66, and the agents that do not look at `FATAL`. -/
theorem fatalStopsCommandsUntilReset : Obligations.FatalStopsCommandsUntilReset := by
  unfold Obligations.FatalStopsCommandsUntilReset
  refine ⟨fun s => rfl, fun i s => exec_stopped i, fun s w rest hcmd hfatal => ?_,
    fun s s' hstep hfatal hlive => ?_, engineMove_fatal, demuxStep_fatal⟩
  · exact (step_cons hcmd).trans (if_pos hfatal)
  · rcases moveEnd_step hstep with ⟨-, rfl⟩ | ⟨m, rest, hinputs, hend⟩
    · exact absurd (hfatal.symm.trans hlive) (by decide)
    · exact ⟨rest, hend.reset_of_fatal_cleared hfatal hlive ▸ hinputs⟩

/-! ## Commands complete -/

/-- R205: no command stops, in any state. -/
theorem exec_completes (i : Instr) (s : State) : ∃ s', exec i s = .next s' := by
  obtain ⟨body, hbody⟩ := exec_eq_command i
  rw [hbody, command]
  split
  · exact ⟨s, rfl⟩
  · exact ⟨body s, rfl⟩

theorem writeCmd_completes (w : Word) (s : State) : ∃ s', writeCmd w s = .next s' := by
  unfold writeCmd runWord
  split
  · exact ⟨s, rfl⟩
  · cases decode w with
    | error e => exact ⟨_, rfl⟩
    | ok i => exact exec_completes i _

end Sys2Proof.Proofs
end

section
/-! PROOF. The register block (`20_memory.md` R47): where its registers stand, what reads and stores of the
environment find there, and that nothing else stops the machine. -/

namespace Sys2Proof.Proofs

open Sys2Proof.Machine

/-! ## Where the registers stand -/

/-- A register of the block stands at `x`: its offset is one of R47's, and `APIINIT` has placed the block
(log 15). -/
def AtRegister (s : State) (x : Word) : Prop :=
  s.apiInit = true ∧
    let o := (x - (s.mbar + 0x1200#32)).toNat
    (0x14 ≤ o ∧ o < 0x5C) ∨ (0x60 ≤ o ∧ o < 0x68)

theorem regCellAt_isSome_iff {o : Nat} :
    (regCellAt o).isSome = true ↔ (0x14 ≤ o ∧ o < 0x5C) ∨ (0x60 ≤ o ∧ o < 0x68) := by
  unfold regCellAt offIpr offImr offTcr offPrio offSz
  split_ifs <;> simp <;> omega

section
variable {s s' : State} {a v x : Word} {f : Fault}

theorem regCell_isSome_iff : (regCell s x).isSome = true ↔ AtRegister s x := by
  unfold regCell AtRegister
  cases s.apiInit with
  | false => simp
  | true => exact regCellAt_isSome_iff.trans (iff_and_self.mpr fun _ => rfl)

theorem regCell_eq_none_iff : regCell s x = none ↔ ¬AtRegister s x := by
  rw [← regCell_isSome_iff, Option.not_isSome_iff_eq_none]

/-! ## Reads -/

/-- The byte at an offset of the block is its register's. -/
theorem busByte_register {o : Nat} {c : RegCell} (hinit : s.apiInit = true) (ho : o < 2 ^ 32)
    (hcell : regCellAt o = some c) :
    busByte s (s.mbar + 0x1200#32 + BitVec.ofNat 32 o) = regCellByte s c := by
  have hoffset : (s.mbar + 0x1200#32 + BitVec.ofNat 32 o - regBase s).toNat = o := by
    rw [regBase, sdmaRegOffset, BitVec.add_comm, BitVec.add_sub_cancel, BitVec.toNat_ofNat,
      Nat.mod_eq_of_lt ho]
  rw [busByte, regCell, if_pos hinit, hoffset, hcell]

theorem busByte_memory (h : ¬AtRegister s a) : busByte s a = s.mem.readByte a := by
  rw [busByte, regCell_eq_none_iff.mpr h]

theorem addrTcr_eq (s : State) (t : TaskId) :
    addrTcr s t = s.mbar + 0x1200#32 + BitVec.ofNat 32 (0x1C + 2 * t.val) := by
  rw [addrTcr, BitVec.ofNat_add, BitVec.add_assoc]
  rfl

theorem regCellAt_ipr (k : Fin 4) : regCellAt (0x14 + k.val) = some (.ipr k) := by
  decide +revert

theorem regCellAt_imr (k : Fin 4) : regCellAt (0x18 + k.val) = some (.imr k) := by
  decide +revert

theorem regCellAt_tcr (t : TaskId) (k : Fin 2) :
    regCellAt (0x1C + 2 * t.val + k.val) = some (.tcr t k) := by
  decide +revert

theorem regCellAt_prio (i : Fin 32) : regCellAt (0x3C + i.val) = some (.prio i) := by
  decide +revert

theorem regCellAt_sz (k : Fin 8) : regCellAt (0x60 + k.val) = some (.sz k) := by
  decide +revert

end

/-- Settles O58: the offsets of R47 one register after the other; the others are memory. -/
theorem registerBlockReadsTheRegisters : Obligations.RegisterBlockReadsTheRegisters := by
  unfold Obligations.RegisterBlockReadsTheRegisters
  intro s hinit base
  refine ⟨fun k hk => ?_, fun k hk => ?_, fun t => ⟨addrTcr_eq s t, ?_, ?_⟩, fun i => ?_, fun k => ?_,
    fun a hgap => busByte_memory ?_⟩
  · exact busByte_register hinit (by omega) (regCellAt_ipr ⟨k, hk⟩)
  · exact busByte_register hinit (by omega) (regCellAt_imr ⟨k, hk⟩)
  · rw [addrTcr_eq]
    exact busByte_register hinit (by omega) (regCellAt_tcr t 0)
  · rw [addrTcr_eq, BitVec.add_assoc, ← BitVec.ofNat_add]
    exact busByte_register hinit (by omega) (regCellAt_tcr t 1)
  · exact busByte_register hinit (by omega) (regCellAt_prio i)
  · exact busByte_register hinit (by omega) (regCellAt_sz k)
  · rintro ⟨-, hregister⟩
    change (0x14 ≤ (a - base).toNat ∧ (a - base).toNat < 0x5C) ∨
      (0x60 ≤ (a - base).toNat ∧ (a - base).toNat < 0x68) at hregister
    omega

/-! ## Stores -/

section
variable {s s' : State} {a v x : Word} {f : Fault}

theorem storeByte_memory (b : Byte) (h : ¬AtRegister s a) :
    storeByte a b s = .next { s with mem := s.mem.writeByte a b } :=
  storeByte_next_iff.mpr ⟨regCell_eq_none_iff.mpr h, rfl⟩

theorem storeByte_register (b : Byte) (h : AtRegister s a) :
    storeByte a b s = .fault (.registerBlockWrite a) :=
  storeByte_fault_iff.mpr ⟨regCell_isSome_iff.mpr h, rfl⟩

theorem storeWord_memory (v : Word) (h : ∀ x, inBytes a 4 x → ¬AtRegister s x) :
    storeWord a v s = .next { s with mem := s.mem.writeWord a v } := by
  refine storeWord_next_iff.mpr ⟨⟨?_, ?_, ?_, ?_⟩, rfl⟩
  all_goals exact regCell_eq_none_iff.mpr (h _ (inBytes_four.mpr (by simp)))

theorem storeByte_eq (b : Byte) (m : Memory) :
    storeByte a b { s with mem := m } =
      if (regCell s a).isSome then .fault (.registerBlockWrite a)
      else .next { s with mem := m.writeByte a b } := by
  rw [storeByte, regCell_mem]
  cases regCell s a with
  | none => rfl
  | some c => rfl

theorem andThen_ite_fault {A B : Type} {c : Prop} [Decidable c] {r : Fault}
    {o : Host.Outcome A Fault Refusal} {g : A → Host.Outcome B Fault Refusal} :
    andThen (if c then .fault r else o) g = if c then .fault r else andThen o g := by
  split <;> rfl

/-- A word store is four byte stores, each in a state that differs from `s` in memory alone. -/
theorem storeWord_eq (a v : Word) (s : State) :
    storeWord a v s =
      if (regCell s a).isSome then .fault (.registerBlockWrite a)
      else if (regCell s (a + 1#32)).isSome then .fault (.registerBlockWrite (a + 1#32))
      else if (regCell s (a + 2#32)).isSome then .fault (.registerBlockWrite (a + 2#32))
      else if (regCell s (a + 3#32)).isSome then .fault (.registerBlockWrite (a + 3#32))
      else .next { s with mem := s.mem.writeWord a v } := by
  have hfirst : storeByte a (beByte v 0) s =
      if (regCell s a).isSome then .fault (.registerBlockWrite a)
      else .next { s with mem := s.mem.writeByte a (beByte v 0) } := storeByte_eq _ s.mem
  simp only [storeWord, hfirst, andThen_ite_fault, andThen_next, storeByte_eq, Memory.writeWord]

/-- A word store that stops names one of its bytes, a register's. -/
theorem register_of_storeWord_fault (h : storeWord a v s = .fault f) :
    ∃ x, f = .registerBlockWrite x ∧ inBytes a 4 x ∧ AtRegister s x := by
  simp only [← regCell_isSome_iff, inBytes_four]
  rw [storeWord_eq] at h
  split_ifs at h with h0 h1 h2 h3
  all_goals
    obtain rfl := Host.Outcome.fault.inj h
    exact ⟨_, rfl, by simp, ‹_›⟩

/-- The first byte of a word that is a register's stops its store. -/
theorem storeWord_register (v : Word) (hx : inBytes a 4 x) (hregister : AtRegister s x)
    (hfirst : ∀ y, inBytes a (x - a).toNat y → ¬AtRegister s y) :
    storeWord a v s = .fault (.registerBlockWrite x) := by
  have hbefore : ∀ k : Word, k.toNat < (x - a).toNat → regCell s (a + k) = none := by
    intro k hk
    refine regCell_eq_none_iff.mpr (hfirst _ ?_)
    unfold inBytes
    bv_omega
  have hcell := regCell_isSome_iff.mpr hregister
  rw [storeWord_eq]
  rcases inBytes_four.mp hx with rfl | rfl | rfl | rfl
  · rw [if_pos hcell]
  · have h0 := hbefore 0#32 (by bv_omega)
    rw [BitVec.add_zero] at h0
    simp only [h0, hcell, Option.isSome_none, Bool.false_eq_true, if_true, if_false]
  · have h0 := hbefore 0#32 (by bv_omega)
    rw [BitVec.add_zero] at h0
    simp only [h0, hbefore 1#32 (by bv_omega), hcell, Option.isSome_none, Bool.false_eq_true, if_true,
      if_false]
  · have h0 := hbefore 0#32 (by bv_omega)
    rw [BitVec.add_zero] at h0
    simp only [h0, hbefore 1#32 (by bv_omega), hbefore 2#32 (by bv_omega), hcell, Option.isSome_none,
      Bool.false_eq_true, if_true, if_false]

end

/-- Settles O59: a store is a write to memory, or stops at its first byte that is a register's. -/
theorem environmentStoresReachMemoryAndPrio : Obligations.EnvironmentStoresReachMemoryAndPrio := by
  unfold Obligations.EnvironmentStoresReachMemoryAndPrio
  intro s rest a register
  refine ⟨fun b hstore hmem => ?_, fun b hstore hregister => ?_, fun v hstore hmem => ?_,
    fun v x hstore hx hregister hfirst => ?_, fun i b hprio => step_cons hprio⟩
  · refine ⟨_, (step_cons hstore).trans (storeByte_memory b hmem), Memory.readByte_writeByte_same _ _ _,
      fun x hx => Memory.readByte_writeByte_other _ _ hx⟩
  · exact (step_cons hstore).trans (storeByte_register b hregister)
  · exact ⟨_, (step_cons hstore).trans (storeWord_memory v hmem), Memory.readWord_writeWord_same _ _ _,
      Memory.readByte_writeWord_same _ _ _, fun x hx => Memory.readByte_writeWord_other _ _ hx⟩
  · exact (step_cons hstore).trans (storeWord_register v hx hregister hfirst)

/-! ## What stops the machine -/

section
variable {s : State}

theorem storeWord_ne_refused (a v : Word) (r : Refusal) : storeWord a v s ≠ .refused r := by
  rw [storeWord_eq]
  split_ifs <;> exact nofun

theorem applyInput_ne_refused (m : Input) (r : Refusal) : applyInput m s ≠ .refused r := by
  cases m with
  | cmd w =>
    obtain ⟨s', hnext⟩ := writeCmd_completes w s
    rw [applyInput, hnext]
    exact nofun
  | storeWord a v => exact storeWord_ne_refused a v r
  | storeByte a b =>
    rw [applyInput, storeByte]
    split <;> exact nofun
  | arg | engine | demux | reset | prio => exact nofun

/-- Only a store of the environment stops the machine, at a byte of its own that is a register's. -/
theorem register_of_applyInput_fault {m : Input} {f : Fault} (h : applyInput m s = .fault f) :
    ∃ a x, f = .registerBlockWrite x ∧ AtRegister s x ∧
      ((∃ b, m = .storeByte a b) ∧ x = a ∨ (∃ v, m = .storeWord a v) ∧ inBytes a 4 x) := by
  cases m with
  | cmd w =>
    obtain ⟨s', hnext⟩ := writeCmd_completes w s
    rw [applyInput, hnext] at h
    cases h
  | storeWord a v =>
    obtain ⟨x, hf, hx, hregister⟩ := register_of_storeWord_fault h
    exact ⟨a, x, hf, hregister, .inr ⟨⟨v, rfl⟩, hx⟩⟩
  | storeByte a b =>
    obtain ⟨hcell, hf⟩ := storeByte_fault_iff.mp h
    exact ⟨a, a, hf, regCell_isSome_iff.mp hcell, .inl ⟨⟨b, rfl⟩, rfl⟩⟩
  | arg | engine | demux | reset | prio => cases h

end

/-- Settles O9: commands complete (`exec_completes`), and a step is one move, which is never refused and
stops at a register only. -/
theorem everyCommandCompletes : Obligations.EveryCommandCompletes := by
  unfold Obligations.EveryCommandCompletes
  refine ⟨exec_completes, fun s r hrefused => ?_, fun s f hfault => ?_⟩
  · cases hinputs : s.inputs with
    | nil =>
      rw [step_idle hinputs] at hrefused
      cases hrefused
    | cons m rest =>
      rw [step_cons hinputs] at hrefused
      exact applyInput_ne_refused m r hrefused
  · cases hinputs : s.inputs with
    | nil =>
      rw [step_idle hinputs] at hfault
      cases hfault
    | cons m rest =>
      rw [step_cons hinputs] at hfault
      obtain ⟨a, x, hf, ⟨hinit, hregister⟩, hstore⟩ := register_of_applyInput_fault hfault
      refine ⟨hinit, a, x, rest, hf, hregister, ?_⟩
      rcases hstore with ⟨⟨b, rfl⟩, hx⟩ | ⟨⟨v, rfl⟩, hx⟩
      · exact .inl ⟨⟨b, rfl⟩, hx⟩
      · exact .inr ⟨⟨v, rfl⟩, hx⟩

end Sys2Proof.Proofs
end

section
/-! PROOF. The moves of the engine and of the demultiplexer, one case per effect (`40_task_control.md` R98,
`60_exceptions.md` R198, R199), and what every step keeps of the registers, the interrupt state and the
form of memory. -/

namespace Sys2Proof.Proofs

open Sys2Proof.Machine

/-! ## The moves of the engine -/

/-- What a move of the engine leaves: one write of `IPR`, of one TCR above bit 14, of one BD status word
with its own cursor, or nothing. -/
inductive EngineEnd (s : State) : EngineEvent → State → Prop where
  | interrupt {e : EngineEvent} (v : Word) : EngineEnd s e (s.setIpr v)
  | enable {e : EngineEvent} {t : TaskId} {v : Half}
      (low : ∀ k < 15, v.getLsbD k = s.tcr[t].getLsbD k) : EngineEnd s e (s.setTcr t v)
  | unchanged {e : EngineEvent} : EngineEnd s e s
  | bdDone {t : TaskId} {status : Word} (live : s.rt[t].numBD ≠ 0#16)
      (ring : s.rt[t].base ≠ 0#32) (ready : bdReady (s.memRead (engineBdAddr s t)) = true) :
      EngineEnd s (.bdDone t status) ((s.memWrite (engineBdAddr s t) status).setEngCur t
        (cursorNext s.engCur[t] s.rt[t].numBD))

section
variable {s s' : State} {e : EngineEvent}

theorem engineEnd_engineMove (h : engineMove e s = some s') : EngineEnd s e s' := by
  cases e with
  | int t =>
    obtain rfl := Option.some.inj h
    exact .interrupt _
  | tea t =>
    obtain rfl := Option.some.inj h
    exact .interrupt _
  | dbg =>
    obtain rfl := Option.some.inj h
    exact .interrupt _
  | done t =>
    obtain ⟨-, h⟩ := Option.ite_none_right_eq_some.mp h
    split at h
    all_goals obtain rfl := Option.some.inj h
    · refine .enable fun k hk => ?_
      rw [tcrEnable_getLsbD_ite _ (by omega), if_neg (by omega)]
    · exact .unchanged
  | selfDis t =>
    obtain ⟨-, h⟩ := Option.ite_none_right_eq_some.mp h
    obtain rfl := Option.some.inj h
    refine .enable fun k hk => ?_
    rw [tcrDisable_getLsbD_ite _ (by omega), if_neg (by omega)]
  | bdDone t status =>
    obtain ⟨⟨-, hring, hlive, hready⟩, h⟩ := Option.ite_none_right_eq_some.mp h
    obtain rfl := Option.some.inj h
    exact .bdDone hlive hring hready

theorem EngineEnd.confined (h : EngineEnd s e s') :
    s' = { s with tcr := s'.tcr, ipr := s'.ipr, mem := s'.mem, engCur := s'.engCur } := by
  cases h <;> rfl

theorem EngineEnd.tcr_low (h : EngineEnd s e s') (u : TaskId) {k : Nat} (hk : k < 15) :
    s'.tcr[u].getLsbD k = s.tcr[u].getLsbD k := by
  cases h with
  | interrupt | unchanged | bdDone => rfl
  | @enable _ t v low =>
    simp only [State.setTcr_tcr, Fin.getElem_fin, Vector.getElem_set]
    split
    · next htu => rw [low k hk, Fin.ext htu]; rfl
    · rfl

theorem EngineEnd.byte_changed (h : EngineEnd s e s') {x : Word}
    (hx : s'.mem.readByte x ≠ s.mem.readByte x) :
    ∃ (t : TaskId) (status : Word), e = .bdDone t status ∧
      inBytes (bdAddr s.rt[t] s.engCur[t].toNat) 4 x ∧
      (s.memRead (bdAddr s.rt[t] s.engCur[t].toNat)).getLsbD 30 = true := by
  cases h with
  | interrupt | unchanged | enable => exact absurd rfl hx
  | @bdDone t status live ring ready =>
    exact ⟨t, status, rfl, not_not.mp (mt (Memory.readByte_writeWord_other _ _) hx), ready⟩

/-- A move of the engine whose precondition fails is dropped (log 2). -/
theorem step_engine_disabled {rest : List Input} (h : s.inputs = .engine e :: rest)
    (hnone : engineMove e { s with inputs := rest } = none) :
    step s = .next { s with inputs := rest } := by
  rw [step_cons h, applyInput, hnone, Option.getD_none]

end

/-- Settles O54: the ends of a move (`EngineEnd`), and the preconditions that fail. -/
theorem engineMovesAreConfined : Obligations.EngineMovesAreConfined := by
  unfold Obligations.EngineMovesAreConfined
  refine ⟨fun e s s' hmove => ?_, fun s rest t hoff hinputs => ?_, fun s rest t status hinputs hbad => ?_⟩
  · have hend := engineEnd_engineMove hmove
    exact ⟨hend.confined, fun t k hk => hend.tcr_low t hk, fun k => iprValue_engineMove hmove,
      fun x => hend.byte_changed⟩
  · have hnot : ¬tcrEn s.tcr[t] = true := Bool.eq_false_iff.mp hoff
    rcases hinputs with hdone | hself
    · exact step_engine_disabled hdone (if_neg hnot)
    · exact step_engine_disabled hself (if_neg hnot)
  · refine step_engine_disabled hinputs (if_neg ?_)
    rintro ⟨hstatus, hring, hlive, hready⟩
    rcases hbad with hbad | hbad | hbad | hbad
    · exact Bool.false_ne_true (hstatus.symm.trans hbad)
    · exact hring hbad
    · exact hlive hbad
    · exact Bool.false_ne_true (hbad.symm.trans hready)

/-! ## The moves of the demultiplexer -/

/-- What a move of the demultiplexer leaves: the two steps of R198 and R199. -/
inductive DemuxEnd (s : State) : State → Prop where
  | fires (idle : s.dmxActive = false) :
      DemuxEnd s { s with dmxSnap := effectivePending s, dmxIdx := 0#6, dmxActive := true }
  | enters {i : Fin 32} (active : s.dmxActive = true) (next : nextSource s.dmxSnap s.dmxIdx.toNat = some i)
      (handler : s.ht[i].fn ≠ 0#32) : DemuxEnd s (enterHandler s i)
  | clears {i : Fin 32} (wait : s.dmxWait = false) :
      DemuxEnd s { s.unpend i.val with dmxIdx := BitVec.ofNat 6 (i.val + 1) }
  | ends (wait : s.dmxWait = false) : DemuxEnd s { s with dmxActive := false }

section
variable {s s' : State}

theorem demuxEnd_demuxScan (h : demuxScan s = some s') : DemuxEnd s s' := by
  obtain ⟨⟨hactive, hwait⟩, h⟩ := Option.ite_none_right_eq_some.mp h
  cases hnext : nextSource s.dmxSnap s.dmxIdx.toNat with
  | none =>
    rw [hnext] at h
    obtain rfl := Option.some.inj h
    exact .ends hwait
  | some i =>
    rw [hnext] at h
    by_cases hfn : s.ht[i].fn = 0#32
    · obtain rfl := Option.some.inj ((if_neg (not_not.mpr hfn)).symm.trans h)
      exact .clears hwait
    · obtain rfl := Option.some.inj ((if_pos hfn).symm.trans h)
      exact .enters hactive hnext hfn

theorem demuxEnd_demuxStep (h : demuxStep s = some s') : DemuxEnd s s' := by
  unfold demuxStep at h
  split at h
  · exact demuxEnd_demuxScan h
  · obtain ⟨⟨hidle, -⟩, h⟩ := Option.ite_none_right_eq_some.mp h
    obtain rfl := Option.some.inj h
    exact .fires hidle

theorem demuxStep_waiting (hactive : s.dmxActive = true) (hwait : s.dmxWait = true) :
    demuxStep s = none := by
  rw [demuxStep_active hactive]
  exact if_neg fun ⟨_, hfree⟩ => Bool.false_ne_true (hfree.symm.trans hwait)

theorem demuxStep_idle (hidle : s.dmxActive = false) (hirq : irq s = false) : demuxStep s = none := by
  rw [demuxStep, hidle, if_neg Bool.false_ne_true]
  exact if_neg fun ⟨_, hreq⟩ => Bool.false_ne_true (hirq.symm.trans hreq)

theorem step_demux_disabled {rest : List Input} (h : s.inputs = .demux :: rest)
    (hnone : demuxStep { s with inputs := rest } = none) : step s = .next { s with inputs := rest } := by
  rw [step_cons h, applyInput, hnone, Option.getD_none]

end

/-- Settles O57: the first step fires, and the scan from index 0 finds the lowest bit of the snapshot. -/
theorem lowestPendingSourceIsDispatched : Obligations.LowestPendingSourceIsDispatched := by
  unfold Obligations.LowestPendingSourceIsDispatched
  refine ⟨fun s rest i hinputs hidle hwait hglue hpend hfirst hfn => ?_,
    fun s rest hinputs hdisabled => ?_⟩
  · have hsome : effectivePending s ≠ 0#32 := fun hzero => by
      rw [hzero, BitVec.getLsbD_zero] at hpend
      cases hpend
    have hnext : nextSource (effectivePending s) 0 = some i :=
      nextSource_eq_some_iff.mpr ⟨Nat.zero_le _, hpend, fun j _ => hfirst j⟩
    exact ⟨_, _, step_demux hinputs (demuxStep_fires hidle (irq_iff.mpr ⟨hglue, hsome⟩)),
      step_demux rfl (demuxStep_enters rfl hwait hnext hfn), rfl, rfl, rfl, rfl, rfl⟩
  · rcases hdisabled with ⟨hactive, hwait⟩ | ⟨hidle, hirq⟩
    · exact step_demux_disabled hinputs (demuxStep_waiting hactive hwait)
    · exact step_demux_disabled hinputs (demuxStep_idle hidle hirq)

end Sys2Proof.Proofs
end

section
/-! PROOF. The interrupt invariant, the register invariant and the canonical form of memory under every
move (`10_state.md` R14 to R18, R28, `60_exceptions.md` R202). -/

namespace Sys2Proof.Proofs

open Sys2Proof.Machine

/-! ## The interrupt words -/

theorem and_not_iprMask (v : Word) : v &&& iprMask &&& ~~~iprMask = 0#32 := by
  rw [BitVec.and_assoc]
  exact BitVec.and_zero

theorem or_srcMask (v : Word) : v ||| ~~~srcMask ||| srcMask = 0xFFFFFFFF#32 := by
  rw [BitVec.or_assoc]
  exact BitVec.or_allOnes

theorem effectivePending_and_not_srcMask (s : State) : effectivePending s &&& ~~~srcMask = 0#32 := by
  refine BitVec.eq_of_getLsbD_eq fun k hk => ?_
  rw [BitVec.getLsbD_and, effectivePending_getLsbD s hk, BitVec.getLsbD_not, isSource, BitVec.getLsbD_zero]
  cases srcMask.getLsbD k <;> simp

section
variable {s s' : State}

theorem interruptInv_setIpr (h : InterruptInv s) (v : Word) : InterruptInv (s.setIpr v) :=
  { h with ipr_bits := and_not_iprMask v }

theorem interruptInv_setImr (h : InterruptInv s) (v : Word) : InterruptInv (s.setImr v) :=
  { h with imr_bits := or_srcMask v }

/-- The snapshot holds source bits only, so the source a scan finds is one. -/
theorem isSource_of_nextSource (h : InterruptInv s) {idx : Nat} {i : Fin 32}
    (hnext : nextSource s.dmxSnap idx = some i) : isSource i.val = true := by
  obtain ⟨-, hset⟩ := nextSource_some hnext
  have hbit := congrArg (fun v => v.getLsbD i.val) h.snap_bits
  simpa [hset, isSource] using hbit

theorem toNat_ofNat_succ (i : Fin 32) : (BitVec.ofNat 6 (i.val + 1)).toNat = i.val + 1 := by
  rw [BitVec.toNat_ofNat]
  omega

theorem interruptInv_demuxEnd (h : InterruptInv s) (hend : DemuxEnd s s') : InterruptInv s' := by
  cases hend with
  | fires idle =>
    have hfree : s.dmxWait ≠ true := fun hwait =>
      Bool.false_ne_true (idle.symm.trans (h.wait_active hwait))
    exact { h with
      snap_bits := effectivePending_and_not_srcMask s
      idx_le := Nat.zero_le _
      wait_active := fun _ => rfl
      wait_idx := fun hwait => absurd hwait hfree }
  | @enters i active next handler =>
    have hid : (BitVec.ofNat 5 i.val).toNat = i.val := by
      rw [BitVec.toNat_ofNat, Nat.mod_eq_of_lt i.isLt]
    exact { h with
      idx_le := (toNat_ofNat_succ i).trans_le i.isLt
      wait_active := fun _ => active
      wait_idx := fun _ => (toNat_ofNat_succ i).trans (congrArg (· + 1) hid.symm)
      wait_source := fun _ => (congrArg isSource hid).trans (isSource_of_nextSource h next)
      wait_handler := fun _ => handler }
  | @clears i wait =>
    exact { interruptInv_setIpr h (bitClear s.ipr i.val) with
      idx_le := (toNat_ofNat_succ i).trans_le i.isLt
      wait_idx := fun hwait => absurd (wait.symm.trans hwait) Bool.false_ne_true }
  | ends wait =>
    exact { h with wait_active := fun hwait => absurd (wait.symm.trans hwait) Bool.false_ne_true }

theorem interruptInv_engineEnd {e : EngineEvent} (h : InterruptInv s) (hend : EngineEnd s e s') :
    InterruptInv s' := by
  cases hend with
  | interrupt v => exact interruptInv_setIpr h v
  | enable | unchanged | bdDone => exact { h with }

theorem interruptInv_exec {i : Instr} (h : InterruptInv s) (hexec : exec i s = .next s') :
    InterruptInv s' := by
  have hrow := exec_writesOnly hexec
  unfold exec at hexec
  cases i with
  | tintclr i =>
    exact command_leaves hexec h (ite_leaves { interruptInv_setIpr h _ with } { h with })
  | girqen i =>
    exact command_leaves hexec h (ite_leaves { interruptInv_setImr h _ with } { h with })
  | girqdis i =>
    exact command_leaves hexec h (ite_leaves { interruptInv_setImr h _ with } { h with })
  | tstart =>
    exact command_leaves hexec h (withTask_leaves { h with } fun _ =>
      ite_leaves { h with } (ite_leaves { h with } { interruptInv_setImr h _ with }))
  | ghdone =>
    exact command_leaves hexec h (ite_leaves
      { h with wait_active := nofun, wait_idx := nofun, wait_source := nofun, wait_handler := nofun }
      { h with })
  | _ =>
    rw [hrow]
    exact { h with }

theorem interruptInv_resetWith (c : Config) : InterruptInv (State.resetWith c) where
  ipr_bits := BitVec.zero_and
  imr_bits := BitVec.allOnes_or
  snap_bits := BitVec.zero_and
  idx_le := Nat.zero_le _
  wait_active := nofun
  wait_idx := nofun
  wait_source := nofun
  wait_handler := nofun

theorem interruptInv_moveEnd {m : Input} (h : InterruptInv s) (hend : MoveEnd s m s') :
    InterruptInv s' := by
  cases hend with
  | @command w _ _ _ _ ran => exact interruptInv_exec (s := { s with cmd := w }) { h with } ran
  | engine moved => exact interruptInv_engineEnd h (engineEnd_engineMove moved)
  | demux moved => exact interruptInv_demuxEnd h (demuxEnd_demuxStep moved)
  | reset => exact { interruptInv_resetWith s.cfg with }
  | stopped | illegal | dropped | arg | prio | storeWord | storeByte => exact { h with }

end

/-- Settles O15: every end of a move keeps the invariant (`interruptInv_moveEnd`). -/
theorem stepKeepsTheInterruptState : Obligations.StepKeepsTheInterruptState := by
  unfold Obligations.StepKeepsTheInterruptState
  intro s s' h hstep
  rcases moveEnd_step hstep with ⟨-, rfl⟩ | ⟨m, rest, -, hend⟩
  · exact h
  · exact interruptInv_moveEnd (s := { s with inputs := rest }) { h with } hend

/-! ## The registers -/

/-- The reserved bits 14:13, 6 and 4 of the TCR of each task (R15). -/
def reservedBits (s : State) (t : TaskId) : Half := s.tcr[t] &&& 0x6050#16

theorem and_reserved_congr {v v' : Half}
    (h : ∀ k, k = 4 ∨ k = 6 ∨ k = 13 ∨ k = 14 → v'.getLsbD k = v.getLsbD k) :
    v' &&& 0x6050#16 = v &&& 0x6050#16 := by
  have hmask : ∀ k < 16, (0x6050#16).getLsbD k = true → k = 4 ∨ k = 6 ∨ k = 13 ∨ k = 14 := by decide
  refine BitVec.eq_of_getLsbD_eq fun k hk => ?_
  rw [BitVec.getLsbD_and, BitVec.getLsbD_and]
  cases hbit : (0x6050#16).getLsbD k with
  | false => rw [Bool.and_false, Bool.and_false]
  | true => rw [h k (hmask k hk hbit)]

theorem reserved_tcrEnable (v : Half) : tcrEnable v &&& 0x6050#16 = v &&& 0x6050#16 :=
  and_reserved_congr fun k hk => by rw [tcrEnable_getLsbD_ite _ (by omega), if_neg (by omega)]

theorem reserved_tcrDisable (v : Half) : tcrDisable v &&& 0x6050#16 = v &&& 0x6050#16 :=
  and_reserved_congr fun k hk => by rw [tcrDisable_getLsbD_ite _ (by omega), if_neg (by omega)]

theorem reserved_tcrWithAutoStart (ase : Bool) (ast : BitVec 4) (v : Half) :
    tcrWithAutoStart ase ast v &&& 0x6050#16 = v &&& 0x6050#16 :=
  and_reserved_congr fun k hk => by
    rw [tcrWithAutoStart_getLsbD _ _ _ (by omega), if_neg (by omega), if_neg (by omega)]

theorem reserved_tcrWithInit (init : BitVec 5) (hold : Bool) (v : Half) :
    tcrWithInit init hold v &&& 0x6050#16 = v &&& 0x6050#16 :=
  and_reserved_congr fun k hk => by
    rw [tcrWithInit_getLsbD _ _ _ (by omega), if_neg (by omega), if_neg (by omega)]

theorem reserved_startedTcr (always ase : Bool) (ast : Nat) (v : Half) :
    startedTcr always ase ast v &&& 0x6050#16 = v &&& 0x6050#16 := by
  rw [startedTcr, reserved_tcrEnable]
  split
  · exact reserved_tcrWithAutoStart ..
  · rfl

section
variable {s s' : State}

theorem reservedBits_setTcr {t : TaskId} {v : Half} (h : v &&& 0x6050#16 = reservedBits s t) :
    reservedBits (s.setTcr t v) = reservedBits s := by
  funext u
  simp only [reservedBits, State.setTcr_tcr, Fin.getElem_fin, Vector.getElem_set]
  split
  · next htu => rw [h, Fin.ext htu]; rfl
  · rfl

theorem reservedBits_exec {i : Instr} (h : exec i s = .next s') : reservedBits s' = reservedBits s := by
  have hrow := exec_writesOnly h
  unfold exec at h
  cases i with
  | tstart =>
    exact command_keeps h (withTask_keeps rfl fun u => ite_keeps rfl (ite_keeps rfl
      (reservedBits_setTcr (s := s.setMaskBit _ _) (reserved_startedTcr ..))))
  | tstop =>
    exact command_keeps h (withTask_keeps rfl fun u => reservedBits_setTcr (reserved_tcrDisable _))
  | tseti =>
    exact command_keeps h (withTask_keeps rfl fun u => reservedBits_setTcr (reserved_tcrWithInit ..))
  | tcfg =>
    refine command_keeps h (ite_keeps rfl ?_)
    split <;> exact reservedBits_setTcr (reserved_tcrWithAutoStart ..)
  | _ =>
    rw [hrow]
    rfl

/-- R196: only a fatal stop sets `FATAL`, and it has one of the two reasons. -/
theorem fatalReason_exec {i : Instr} (h : exec i s = .next s') (hlive : s.fatal = false)
    (hfatal : s'.fatal = true) : s'.fatalReason = badNumPtr ∨ s'.fatalReason = allocFail := by
  obtain ⟨t, np, c, rfl, hcause⟩ := (commandEnd_exec h hlive).fatalCause hlive hfatal
  obtain rfl := Host.Outcome.next.inj (h.symm.trans (exec_bdsetup_fatal hlive hcause))
  rw [raiseFatal_fatalReason]
  split
  · exact .inr rfl
  · exact .inl rfl

theorem registerInv_of_kept (h : RegisterInv s) (htcr : reservedBits s' = reservedBits s)
    (hfatal : s'.fatal = s.fatal) (hreason : s'.fatalReason = s.fatalReason) : RegisterInv s' where
  tcr_reserved t := (congrFun htcr t).trans (h.tcr_reserved t)
  fatal_reason hset := hreason ▸ h.fatal_reason (hfatal.symm.trans hset)

theorem registerInv_exec {i : Instr} (h : RegisterInv s) (hlive : s.fatal = false)
    (hexec : exec i s = .next s') : RegisterInv s' where
  tcr_reserved t := (congrFun (reservedBits_exec hexec) t).trans (h.tcr_reserved t)
  fatal_reason := fatalReason_exec hexec hlive

theorem reservedBits_engineEnd {e : EngineEvent} (hend : EngineEnd s e s') :
    reservedBits s' = reservedBits s := by
  funext t
  exact and_reserved_congr fun k hk => hend.tcr_low t (by omega)

theorem registerInv_resetWith (c : Config) : RegisterInv (State.resetWith c) where
  tcr_reserved t := congrArg (· &&& 0x6050#16) (resetWith_tcr c t.isLt)
  fatal_reason := nofun

theorem registerInv_moveEnd {m : Input} (h : RegisterInv s) (hend : MoveEnd s m s') :
    RegisterInv s' := by
  cases hend with
  | @command w _ _ live _ ran => exact registerInv_exec (s := { s with cmd := w }) { h with } live ran
  | engine moved =>
    have hengine := engineEnd_engineMove moved
    exact registerInv_of_kept h (reservedBits_engineEnd hengine) (by rw [hengine.confined])
      (by rw [hengine.confined])
  | demux moved => cases demuxEnd_demuxStep moved <;> exact { h with }
  | reset => exact { registerInv_resetWith s.cfg with }
  | stopped | illegal | dropped | arg | prio | storeWord | storeByte => exact { h with }

end

/-! ## The form of memory -/

theorem wf_assignBd (e : RingEntry) (i : Nat) (buf0 buf1 status : Word) {m : Memory}
    (hm : Memory.wf m = true) : Memory.wf (assignBd e i buf0 buf1 status m) = true := by
  have hbuf0 := Memory.wf_writeWord (bdAddr e i + 4#32) buf0 hm
  unfold assignBd
  split
  · exact Memory.wf_writeWord _ _ (Memory.wf_writeWord _ _ hbuf0)
  · exact Memory.wf_writeWord _ _ hbuf0

section
variable {s s' : State}

/-- Memory is in canonical form. -/
def MemoryWf (s : State) : Prop := Memory.wf s.mem = true

theorem memoryWf_ret (v : Word) (h : MemoryWf s) : MemoryWf (s.ret v) := h

theorem memoryWf_armRing (t : TaskId) (lastSlot status numBD : Word) (h : MemoryWf s) :
    MemoryWf (s.armRing t lastSlot status numBD) := by
  rw [armRing_eq]
  exact Memory.wf_writeWord _ _ (wf_fillBds _ _ _ (Memory.wf_writeWord _ _ h))

theorem memoryWf_allocRing (t : TaskId) (np : BitVec 2) (apiConfig : Byte)
    (baseSlot startSlot maxBD : Word) (h : MemoryWf s) :
    MemoryWf (s.allocRing t np apiConfig baseSlot startSlot maxBD) := by
  rw [allocRing_eq]
  exact Memory.wf_writeWord _ _ h

theorem memoryWf_exec {i : Instr} (hm : MemoryWf s) (h : exec i s = .next s') : MemoryWf s' := by
  have hrow := exec_writesOnly h
  unfold exec at h
  cases i with
  | bdsetup =>
    refine command_leaves h hm (withTask_leaves hm fun _ => ?_)
    refine ite_leaves hm (ite_leaves hm (ite_leaves hm (ite_leaves hm (ite_leaves ?_ ?_))))
    · exact ite_leaves hm (ite_leaves hm (memoryWf_ret _ (memoryWf_armRing _ _ _ _
        (memoryWf_allocRing _ _ _ _ _ _ hm))))
    · exact ite_leaves hm (ite_leaves hm (memoryWf_ret _ (memoryWf_armRing _ _ _ _ hm)))
  | bdassign =>
    exact command_leaves h hm (withTask_leaves hm fun _ => ite_leaves hm (ite_leaves hm
      (wf_assignBd _ _ _ _ _ hm)))
  | bdreset =>
    exact command_leaves h hm (withTask_leaves hm fun _ => ite_leaves hm
      (Memory.wf_writeWord _ _ (wf_fillBds _ _ _ hm)))
  | tcfg =>
    refine command_leaves h hm (ite_leaves hm ?_)
    split
    · exact hm
    · exact Memory.wf_writeWord _ _ hm
  | drdpatch =>
    exact command_leaves h hm (ite_leaves hm (ite_leaves hm (wf_drdWalk _ _ _ _ hm)))
  | _ =>
    rw [hrow]
    exact hm

theorem memoryWf_moveEnd {m : Input} (hm : MemoryWf s) (hend : MoveEnd s m s') : MemoryWf s' := by
  cases hend with
  | @command w _ _ _ _ ran => exact memoryWf_exec (s := { s with cmd := w }) hm ran
  | engine moved =>
    cases engineEnd_engineMove moved with
    | bdDone => exact Memory.wf_writeWord _ _ hm
    | interrupt | enable | unchanged => exact hm
  | demux moved => cases demuxEnd_demuxStep moved <;> exact hm
  | storeWord a v => exact Memory.wf_writeWord _ _ hm
  | storeByte a b => exact Memory.wf_writeByte _ _ hm
  | stopped | illegal | dropped | reset | arg | prio => exact hm

end

/-- Settles O16: every end of a move keeps both (`registerInv_moveEnd`, `memoryWf_moveEnd`). -/
theorem stepKeepsRegistersAndMemoryForm : Obligations.StepKeepsRegistersAndMemoryForm := by
  unfold Obligations.StepKeepsRegistersAndMemoryForm
  intro s s' hstep
  rcases moveEnd_step hstep with ⟨-, rfl⟩ | ⟨m, rest, -, hend⟩
  · exact ⟨id, id⟩
  · exact ⟨fun h => registerInv_moveEnd (s := { s with inputs := rest }) { h with } hend,
      fun hm => memoryWf_moveEnd (s := { s with inputs := rest }) hm hend⟩

end Sys2Proof.Proofs
end

section
/-! PROOF. `BDSETUP` and `BDRESET` (`41_bd_ring.md` R100 to R106, R115): when they are refused, the state
they leave, and the words of the ring and of its slots. -/

namespace Sys2Proof.Proofs

open Sys2Proof.Machine

/-! ## Bytes that do not wrap -/

section
variable {e : RingEntry} {i j n : Nat} {x : Word}

/-- Where a block does not wrap past 2^32 its bytes are an interval. -/
theorem inBytes_iff {a : Word} (h : a.toNat + n ≤ 2 ^ 32) :
    inBytes a n x ↔ a.toNat ≤ x.toNat ∧ x.toNat < a.toNat + n := by
  unfold inBytes
  bv_omega

/-- BD `i` of `n` that do not wrap lies within them. -/
theorem bdAddr_toNat (h : e.base.toNat + n * bdSize e.numPtr ≤ 2 ^ 32) (hi : i < n) :
    (bdAddr e i).toNat = e.base.toNat + i * bdSize e.numPtr ∧
      e.base.toNat + (i + 1) * bdSize e.numPtr ≤ e.base.toNat + n * bdSize e.numPtr := by
  have hle : (i + 1) * bdSize e.numPtr ≤ n * bdSize e.numPtr := Nat.mul_le_mul_right _ hi
  have hpos : 0 < bdSize e.numPtr := by unfold bdSize; omega
  rw [Nat.succ_mul] at hle ⊢
  refine ⟨?_, by omega⟩
  rw [bdAddr, BitVec.toNat_add, BitVec.toNat_ofNat, Nat.mod_eq_of_lt (a := i * _) (by omega),
    Nat.mod_eq_of_lt (by omega)]

theorem inBytes_bd_iff (h : e.base.toNat + n * bdSize e.numPtr ≤ 2 ^ 32) (hi : i < n) :
    inBytes (bdAddr e i) (bdSize e.numPtr) x ↔
      e.base.toNat + i * bdSize e.numPtr ≤ x.toNat ∧
        x.toNat < e.base.toNat + (i + 1) * bdSize e.numPtr := by
  obtain ⟨haddr, hend⟩ := bdAddr_toNat h hi
  rw [Nat.succ_mul] at hend ⊢
  rw [inBytes_iff (by omega), haddr, Nat.add_assoc]

/-- Two BDs of a ring share no byte. -/
theorem bds_apart (h : e.base.toNat + n * bdSize e.numPtr ≤ 2 ^ 32) (hi : i < n) (hj : j < n)
    (hij : i ≠ j) (hx : inBytes (bdAddr e i) (bdSize e.numPtr) x) :
    ¬inBytes (bdAddr e j) (bdSize e.numPtr) x := by
  rw [inBytes_bd_iff h hi] at hx
  rw [inBytes_bd_iff h hj]
  rcases Nat.lt_or_gt_of_ne hij with hlt | hlt
  · have : (i + 1) * bdSize e.numPtr ≤ j * bdSize e.numPtr := Nat.mul_le_mul_right _ hlt
    omega
  · have : (j + 1) * bdSize e.numPtr ≤ i * bdSize e.numPtr := Nat.mul_le_mul_right _ hlt
    omega

/-- The bytes of a BD are bytes of the block all of them make. -/
theorem inBytes_ring_of_bd (h : e.base.toNat + n * bdSize e.numPtr ≤ 2 ^ 32) (hi : i < n)
    (hx : inBytes (bdAddr e i) (bdSize e.numPtr) x) :
    inBytes e.base (n * bdSize e.numPtr) x := by
  obtain ⟨-, hend⟩ := bdAddr_toNat h hi
  rw [inBytes_bd_iff h hi] at hx
  rw [inBytes_iff h]
  omega

end

/-! ## The words of a filled BD -/

/-- The bytes `fillBd` writes, whatever the number of pointers says. -/
def filledBytes (e : RingEntry) : Nat := if e.numPtr = 2#2 then 12 else 8

theorem filledBytes_eq_bdSize {e : RingEntry} (h : e.numPtr = 1#2 ∨ e.numPtr = 2#2) :
    filledBytes e = bdSize e.numPtr := by
  rcases h with h | h <;> rw [filledBytes, h] <;> rfl

/-- BD `i` holds the status and null pointers (R104). -/
structure HoldsBd (m : Memory) (e : RingEntry) (i : Nat) (status : Word) : Prop where
  status : m.readWord (bdAddr e i) = status
  buf0 : m.readWord (bdAddr e i + 4#32) = 0#32
  buf1 : e.numPtr = 2#2 → m.readWord (bdAddr e i + 8#32) = 0#32

section
variable {e : RingEntry} {i n : Nat} {status : Word} {m m' : Memory} {x : Word}

theorem inBytes_of_word {a : Word} {k : Nat} (hk : k + 4 ≤ n) (hn : n ≤ 2 ^ 32)
    (hx : inBytes (a + BitVec.ofNat 32 k) 4 x) : inBytes a n x :=
  not_not.mp fun h => not_inBytes_word h hk hn hx

/-- `fillBd` is a word write each for the status and the pointers. -/
theorem fillBd_two (h : e.numPtr = 2#2) : fillBd e i status m =
    ((m.writeWord (bdAddr e i) status).writeWord (bdAddr e i + 4#32) 0#32).writeWord
      (bdAddr e i + 8#32) 0#32 :=
  if_pos h

theorem fillBd_one (h : e.numPtr ≠ 2#2) : fillBd e i status m =
    (m.writeWord (bdAddr e i) status).writeWord (bdAddr e i + 4#32) 0#32 :=
  if_neg h

theorem readByte_fillBd_outside (h : ¬inBytes (bdAddr e i) (filledBytes e) x) :
    (fillBd e i status m).readByte x = m.readByte x := by
  by_cases hptr : e.numPtr = 2#2
  · rw [filledBytes, if_pos hptr] at h
    rw [fillBd_two hptr,
      Memory.readByte_writeWord_other _ _ (not_inBytes_word (k := 8) h (by decide) (by decide)),
      Memory.readByte_writeWord_other _ _ (not_inBytes_word (k := 4) h (by decide) (by decide)),
      Memory.readByte_writeWord_other _ _ (fun hx => h (by unfold inBytes at hx ⊢; omega))]
  · rw [filledBytes, if_neg hptr] at h
    rw [fillBd_one hptr,
      Memory.readByte_writeWord_other _ _ (not_inBytes_word (k := 4) h (by decide) (by decide)),
      Memory.readByte_writeWord_other _ _ (fun hx => h (by unfold inBytes at hx ⊢; omega))]

theorem fillBds_succ : fillBds e status (n + 1) m = fillBd e n status (fillBds e status n m) := by
  simp only [fillBds, List.range_succ, List.foldl_append, List.foldl_cons, List.foldl_nil]

theorem readByte_fillBds_outside (h : ∀ i < n, ¬inBytes (bdAddr e i) (filledBytes e) x) :
    (fillBds e status n m).readByte x = m.readByte x := by
  induction n with
  | zero => rfl
  | succ n ih =>
    rw [fillBds_succ, readByte_fillBd_outside (h n (Nat.lt_succ_self n))]
    exact ih fun i hi => h i (Nat.lt_succ_of_lt hi)

theorem holdsBd_fillBd : HoldsBd (fillBd e i status m) e i status := by
  have h4 := words_apart (a := bdAddr e i + 4#32) (b := bdAddr e i) (by bv_omega) (by bv_omega)
  have h8 := words_apart (a := bdAddr e i + 8#32) (b := bdAddr e i) (by bv_omega) (by bv_omega)
  have h48 := words_apart (a := bdAddr e i + 8#32) (b := bdAddr e i + 4#32) (by bv_omega) (by bv_omega)
  by_cases hptr : e.numPtr = 2#2
  · rw [fillBd_two hptr]
    refine ⟨?_, ?_, fun _ => Memory.readWord_writeWord_same ..⟩
    · rw [Memory.readWord_writeWord_other _ _ h8, Memory.readWord_writeWord_other _ _ h4,
        Memory.readWord_writeWord_same]
    · rw [Memory.readWord_writeWord_other _ _ h48, Memory.readWord_writeWord_same]
  · rw [fillBd_one hptr]
    refine ⟨?_, Memory.readWord_writeWord_same .., fun htwo => absurd htwo hptr⟩
    rw [Memory.readWord_writeWord_other _ _ h4, Memory.readWord_writeWord_same]

/-- What a BD holds is in its own bytes. -/
theorem HoldsBd.congr (h : HoldsBd m e i status)
    (hbytes : ∀ x, inBytes (bdAddr e i) (filledBytes e) x → m'.readByte x = m.readByte x) :
    HoldsBd m' e i status := by
  have hword : ∀ (k : Nat), k + 4 ≤ filledBytes e →
      m'.readWord (bdAddr e i + BitVec.ofNat 32 k) = m.readWord (bdAddr e i + BitVec.ofNat 32 k) := by
    intro k hk
    have hn : filledBytes e ≤ 2 ^ 32 := by unfold filledBytes; split <;> decide
    exact Memory.readWord_congr fun x hx => hbytes x (inBytes_of_word hk hn hx)
  have hlow : 8 ≤ filledBytes e := by unfold filledBytes; split <;> decide
  refine ⟨?_, (hword 4 hlow).trans h.buf0, fun htwo => ?_⟩
  · have hstatus := hword 0 (by omega)
    rw [BitVec.add_zero] at hstatus
    exact hstatus.trans h.status
  · exact (hword 8 (by rw [filledBytes, if_pos htwo])).trans (h.buf1 htwo)

/-- R104: every BD of a ring that does not wrap is filled. -/
theorem holdsBd_fillBds (hptr : e.numPtr = 1#2 ∨ e.numPtr = 2#2)
    (hwrap : e.base.toNat + n * bdSize e.numPtr ≤ 2 ^ 32) (hi : i < n) :
    HoldsBd (fillBds e status n m) e i status := by
  have hsize := filledBytes_eq_bdSize hptr
  have hcount : ∀ k, k ≤ n → i < k → HoldsBd (fillBds e status k m) e i status := by
    intro k
    induction k with
    | zero => exact fun _ hik => absurd hik (Nat.not_lt_zero i)
    | succ k ih =>
      intro hk hik
      rw [fillBds_succ]
      by_cases heq : i = k
      · rw [heq]
        exact holdsBd_fillBd
      · refine (ih (by omega) (by omega)).congr fun x hx => readByte_fillBd_outside ?_
        rw [hsize] at hx ⊢
        exact bds_apart hwrap hi (by omega) heq hx
  exact hcount n (Nat.le_refl n) hi

end

/-! ## `BDSETUP` -/

section
variable {s s' : State} {t : TaskId} {np : BitVec 2} {c : Byte}

theorem exec_bdsetup_outOfRange {n : Nat} (hlive : s.fatal = false) (hn : 16 ≤ n) :
    exec (.bdsetup n np c) s = .next (s.ret invalidArg) := by
  rw [exec, execBdsetup, command_withTask_refused hlive hn]

/-- Lines 2 to 4 of R100. -/
theorem exec_bdsetup_badOperands (hlive : s.fatal = false) (hbad : ¬SetupOperandsOk s) :
    exec (.bdsetup t.val np c) s = .next (s.ret invalidArg) := by
  rw [setupOperandsOk_iff] at hbad
  rw [exec, execBdsetup, command_withTask_handle hlive]
  refine congrArg _ ?_
  by_cases hslots : aligned (argReg s 0) ∧ aligned (argReg s 1) ∧ aligned (argReg s 2)
  · refine (if_neg (not_not.mpr hslots)).trans ?_
    by_cases hcounts : 0xFFFF < (argReg s 4).toNat ∨ 0xFFFF < (argReg s 5).toNat
    · exact if_pos hcounts
    · have hle : (argReg s 5).toNat < (argReg s 4).toNat := by
        by_contra hle
        exact hbad ⟨hslots, hcounts, hle⟩
      exact (if_neg hcounts).trans (if_pos hle)
  · exact if_pos hslots

/-- R100 past line 6: its lines 7 to 24. -/
theorem exec_bdsetup_goodOperands (hlive : s.fatal = false) (hok : SetupOperandsOk s)
    (hnp : np = 1#2 ∨ np = 2#2) :
    exec (.bdsetup t.val np c) s = .next (
      if s.rt[t].base = 0#32 then
        if argReg s 5 = 0#32 then s.ret invalidArg
        else if allocFails s ((argReg s 5).toNat * bdSize np) then raiseFatal s allocFail
        else ((s.allocRing t np c (argReg s 0) (argReg s 2) (argReg s 5)).armRing t (argReg s 1)
          (argReg s 3) (argReg s 4)).ret noErr
      else if np ≠ s.rt[t].numPtr then s.ret invalidArg
      else if s.rt[t].capBD.toNat < (argReg s 4).toNat then s.ret invalidArg
      else (s.armRing t (argReg s 1) (argReg s 3) (argReg s 4)).ret noErr) := by
  obtain ⟨hslots, hcounts, hle⟩ := setupOperandsOk_iff.mp hok
  rw [exec, execBdsetup, command_withTask_handle hlive]
  exact congrArg _ ((if_neg (not_not.mpr hslots)).trans ((if_neg hcounts).trans ((if_neg hle).trans
    (if_neg (mt badNumPtr_iff.mp (not_not.mpr hnp))))))

theorem exec_bdsetup_noBds (hlive : s.fatal = false) (hnp : np = 1#2 ∨ np = 2#2)
    (hbase : s.rt[t].base = 0#32) (hmax : argReg s 5 = 0#32) :
    exec (.bdsetup t.val np c) s = .next (s.ret invalidArg) := by
  by_cases hok : SetupOperandsOk s
  · rw [exec_bdsetup_goodOperands hlive hok hnp, if_pos hbase, if_pos hmax]
  · exact exec_bdsetup_badOperands hlive hok

theorem exec_bdsetup_otherRing (hlive : s.fatal = false) (hnp : np = 1#2 ∨ np = 2#2)
    (hbase : s.rt[t].base ≠ 0#32)
    (hring : np ≠ s.rt[t].numPtr ∨ s.rt[t].capBD.toNat < (argReg s 4).toNat) :
    exec (.bdsetup t.val np c) s = .next (s.ret invalidArg) := by
  by_cases hok : SetupOperandsOk s
  · rw [exec_bdsetup_goodOperands hlive hok hnp, if_neg hbase]
    by_cases hptr : np ≠ s.rt[t].numPtr
    · rw [if_pos hptr]
    · rw [if_neg hptr, if_pos (hring.resolve_left hptr)]
  · exact exec_bdsetup_badOperands hlive hok

/-- The entry a first `BDSETUP` writes. -/
def freshEntry (s : State) (np : BitVec 2) (c : Byte) : RingEntry where
  base := s.allocPtr
  numBD := (argReg s 4).setWidth 16
  capBD := (argReg s 5).setWidth 16
  numPtr := np
  apiConfig := c
  startReg := argReg s 2
  inUse := 0#16
  wr := 0#16
  rd := 0#16

/-- Lines 19 to 24 of R100: the `lastPtr` slot, the live BDs and the start slot, in this order. -/
def setupMem (s : State) (e : RingEntry) (m : Memory) : Memory :=
  (fillBds e (argReg s 3) (argReg s 4).toNat
    (m.writeWord (argReg s 1) (lastBdDev s e (argReg s 4)))).writeWord e.startReg (dev s e.base)

/-- The state a first `BDSETUP` leaves (R103, R104). -/
def firstSetup (s : State) (t : TaskId) (np : BitVec 2) (c : Byte) : State :=
  { s with
    rt := s.rt.set t (freshEntry s np c)
    allocPtr := s.allocPtr + BitVec.ofNat 32 ((argReg s 5).toNat * bdSize np)
    engCur := s.engCur.set t 0#16
    mem := setupMem s (freshEntry s np c) (s.mem.writeWord (argReg s 0) (dev s s.allocPtr))
    res := noErr }

/-- The state a later `BDSETUP` leaves (R101). -/
def laterSetup (s : State) (t : TaskId) : State :=
  { s with
    rt := s.rt.set t (armedEntry s.rt[t] (argReg s 4))
    engCur := s.engCur.set t 0#16
    mem := setupMem s (armedEntry s.rt[t] (argReg s 4)) s.mem
    res := noErr }

theorem exec_bdsetup_first (hlive : s.fatal = false) (hok : SetupOperandsOk s)
    (hnp : np = 1#2 ∨ np = 2#2) (hbase : s.rt[t].base = 0#32) (hmax : argReg s 5 ≠ 0#32)
    (hfits : RingFits s np) : exec (.bdsetup t.val np c) s = .next (firstSetup s t np c) := by
  rw [exec_bdsetup_goodOperands hlive hok hnp, if_pos hbase, if_neg hmax,
    if_neg (mt not_ringFits_iff.mp (not_not.mpr hfits)), armRing_eq, allocRing_eq]
  simp only [Fin.getElem_fin, Vector.getElem_set_self, Vector.set_set]
  rfl

theorem exec_bdsetup_later (hlive : s.fatal = false) (hok : SetupOperandsOk s)
    (hnp : np = 1#2 ∨ np = 2#2) (hbase : s.rt[t].base ≠ 0#32) (hptr : np = s.rt[t].numPtr)
    (hcap : (argReg s 4).toNat ≤ s.rt[t].capBD.toNat) :
    exec (.bdsetup t.val np c) s = .next (laterSetup s t) := by
  rw [exec_bdsetup_goodOperands hlive hok hnp, if_neg hbase, if_neg (not_not.mpr hptr),
    if_neg (Nat.not_lt.mpr hcap), armRing_eq]
  rfl

/-- How a `BDSETUP` ends with `FATAL` = 0. -/
inductive BdsetupEnd (s : State) (n : Nat) (np : BitVec 2) (c : Byte) : State → Prop where
  | refused : BdsetupEnd s n np c (s.ret invalidArg)
  | fatal (reason : BitVec 2) : BdsetupEnd s n np c (raiseFatal s reason)
  | first {t : TaskId} (task : n = t.val) (ok : SetupOperandsOk s) (pointers : np = 1#2 ∨ np = 2#2)
      (noRing : s.rt[t].base = 0#32) (hasBds : argReg s 5 ≠ 0#32) (fits : RingFits s np) :
      BdsetupEnd s n np c (firstSetup s t np c)
  | later {t : TaskId} (task : n = t.val) (ok : SetupOperandsOk s) (ring : s.rt[t].base ≠ 0#32)
      (pointers : np = s.rt[t].numPtr) (cap : (argReg s 4).toNat ≤ s.rt[t].capBD.toNat) :
      BdsetupEnd s n np c (laterSetup s t)

theorem bdsetupEnd_exec {n : Nat} (h : exec (.bdsetup n np c) s = .next s') (hlive : s.fatal = false) :
    BdsetupEnd s n np c s' := by
  have hend : ∀ {a : State}, exec (.bdsetup n np c) s = .next a → BdsetupEnd s n np c a →
      BdsetupEnd s n np c s' := fun ha hend => Host.Outcome.next.inj (ha.symm.trans h) ▸ hend
  by_cases hn : n < 16
  swap
  · exact hend (exec_bdsetup_outOfRange hlive (Nat.le_of_not_lt hn)) .refused
  lift n to TaskId using hn with t
  by_cases hok : SetupOperandsOk s
  swap
  · exact hend (exec_bdsetup_badOperands hlive hok) .refused
  by_cases hnp : np = 1#2 ∨ np = 2#2
  swap
  · exact hend (exec_bdsetup_fatal hlive ⟨hok, by rw [if_neg hnp]; trivial⟩) (.fatal _)
  by_cases hbase : s.rt[t].base = 0#32
  · by_cases hmax : argReg s 5 = 0#32
    · exact hend (exec_bdsetup_noBds hlive hnp hbase hmax) .refused
    by_cases hfits : RingFits s np
    · exact hend (exec_bdsetup_first hlive hok hnp hbase hmax hfits)
        (.first rfl hok hnp hbase hmax hfits)
    · have hcause : FatalCause s t np := ⟨hok, by rw [if_pos hnp]; exact ⟨hbase, hmax, hfits⟩⟩
      exact hend (exec_bdsetup_fatal hlive hcause) (.fatal _)
  · by_cases hring : np ≠ s.rt[t].numPtr ∨ s.rt[t].capBD.toNat < (argReg s 4).toNat
    · exact hend (exec_bdsetup_otherRing hlive hnp hbase hring) .refused
    · obtain ⟨hptr, hcap⟩ := not_or.mp hring
      exact hend (exec_bdsetup_later hlive hok hnp hbase (not_not.mp hptr) (Nat.not_lt.mp hcap))
        (.later rfl hok hbase (not_not.mp hptr) (Nat.not_lt.mp hcap))

end

/-- Settles O22: the refusals of `BDSETUP`, one lemma for each line of R100. -/
theorem bdsetupRefusesBadOperands : Obligations.BdsetupRefusesBadOperands := by
  unfold Obligations.BdsetupRefusesBadOperands
  exact fun np c s hlive => ⟨fun t ht => exec_bdsetup_outOfRange hlive ht,
    fun t hbad => exec_bdsetup_badOperands hlive hbad,
    fun t hnp hbase hmax => exec_bdsetup_noBds hlive hnp hbase hmax,
    fun t hnp hbase hring => exec_bdsetup_otherRing hlive hnp hbase hring⟩

/-! ## The memory `BDSETUP` leaves -/

section
variable {s : State} {e : RingEntry} {m : Memory}

theorem readByte_setupMem_other {x : Word} (hptr : e.numPtr = 1#2 ∨ e.numPtr = 2#2)
    (hlast : ¬inBytes (argReg s 1) 4 x) (hstart : ¬inBytes e.startReg 4 x)
    (hbds : ∀ i < (argReg s 4).toNat, ¬inBytes (bdAddr e i) (bdSize e.numPtr) x) :
    (setupMem s e m).readByte x = m.readByte x := by
  rw [setupMem, Memory.readByte_writeWord_other _ _ hstart, readByte_fillBds_other _ _ _ _ hptr hbds,
    Memory.readByte_writeWord_other _ _ hlast]

theorem readWord_setupMem_start : (setupMem s e m).readWord e.startReg = dev s e.base :=
  Memory.readWord_writeWord_same ..

/-- A ring that `BDSETUP` arms: its live BDs are within storage that does not wrap, and the two slots it
writes are different words outside (R106). -/
structure SetupRing (s : State) (e : RingEntry) : Prop where
  pointers : e.numPtr = 1#2 ∨ e.numPtr = 2#2
  ring : e.base ≠ 0#32
  live : (argReg s 4).toNat ≤ e.capBD.toNat
  noWrap : e.base.toNat + ringBytes e ≤ 2 ^ 32
  lastAligned : (argReg s 1).toNat % 4 = 0
  startAligned : e.startReg.toNat % 4 = 0
  slotsApart : argReg s 1 ≠ e.startReg
  slotsOutside : ∀ x, inStorage e x → ¬inBytes (argReg s 1) 4 x ∧ ¬inBytes e.startReg 4 x

theorem SetupRing.bd_inStorage (h : SetupRing s e) {i : Nat} (hi : i < (argReg s 4).toNat) {x : Word}
    (hx : inBytes (bdAddr e i) (bdSize e.numPtr) x) : inStorage e x := by
  have hstorage := inBytes_ring_of_bd h.noWrap (Nat.lt_of_lt_of_le hi h.live) hx
  exact ⟨h.ring, (inBytes_iff h.noWrap).mp hstorage⟩

/-- A word that is no slot and outside the storage is left alone. -/
theorem SetupRing.readWord_other (h : SetupRing s e) {a : Word} (ha : a.toNat % 4 = 0)
    (hlast : a ≠ argReg s 1) (hstart : a ≠ e.startReg) (hout : ∀ x, inStorage e x → ¬inBytes a 4 x) :
    (setupMem s e m).readWord a = m.readWord a :=
  Memory.readWord_congr fun x hx => readByte_setupMem_other h.pointers
    (aligned_words_apart h.lastAligned ha hlast x hx)
    (aligned_words_apart h.startAligned ha hstart x hx)
    fun _ hi hbd => hout x (h.bd_inStorage hi hbd) hx

theorem SetupRing.readWord_last (h : SetupRing s e) :
    (setupMem s e m).readWord (argReg s 1) = lastBdDev s e (argReg s 4) := by
  have hstart := aligned_words_apart h.startAligned h.lastAligned h.slotsApart
  have hfilled : ∀ m' : Memory,
      (fillBds e (argReg s 3) (argReg s 4).toNat m').readWord (argReg s 1) = m'.readWord (argReg s 1) :=
    fun m' => Memory.readWord_congr fun x hx => readByte_fillBds_other _ _ _ _ h.pointers fun i hi hbd =>
      (h.slotsOutside x (h.bd_inStorage hi hbd)).1 hx
  rw [setupMem, Memory.readWord_writeWord_other _ _ hstart, hfilled, Memory.readWord_writeWord_same]

theorem SetupRing.holdsBd (h : SetupRing s e) {i : Nat} (hi : i < (argReg s 4).toNat) :
    HoldsBd (setupMem s e m) e i (argReg s 3) := by
  have hwrap : e.base.toNat + (argReg s 4).toNat * bdSize e.numPtr ≤ 2 ^ 32 := by
    have hlive : (argReg s 4).toNat * bdSize e.numPtr ≤ ringBytes e := Nat.mul_le_mul_right _ h.live
    have := h.noWrap
    omega
  refine (holdsBd_fillBds (m := m.writeWord (argReg s 1) (lastBdDev s e (argReg s 4))) h.pointers hwrap
    hi).congr fun x hx => ?_
  rw [filledBytes_eq_bdSize h.pointers] at hx
  exact Memory.readByte_writeWord_other _ _ (h.slotsOutside x (h.bd_inStorage hi hx)).2

end

/-- Settles O23: the state left is `firstSetup`, whose memory is the `basePtr` slot and `setupMem`. -/
theorem bdsetupFirstCallAllocates : Obligations.BdsetupFirstCallAllocates := by
  unfold Obligations.BdsetupFirstCallAllocates
  intro t np c s hlive hok hnp hbase hmax hfits e
  refine ⟨_, exec_bdsetup_first hlive hok hnp hbase hmax hfits, readWord_setupMem_start,
    fun x hslot hlast hstart hbds => ?_⟩
  rw [readByte_setupMem_other (e := freshEntry s np c) hnp hlast hstart hbds,
    Memory.readByte_writeWord_other _ _ hslot]

/-- Settles O24: the state left is `laterSetup`, whose memory is `setupMem`. -/
theorem bdsetupLaterCallReusesTheRing : Obligations.BdsetupLaterCallReusesTheRing := by
  unfold Obligations.BdsetupLaterCallReusesTheRing
  intro t np c s hlive hok hnp hbase hptr hcap e
  refine ⟨_, exec_bdsetup_later hlive hok hnp hbase hptr hcap, readWord_setupMem_start,
    fun x hlast hstart hbds => ?_⟩
  rw [hptr] at hnp hbds
  exact readByte_setupMem_other (e := armedEntry s.rt[t] (argReg s 4)) hnp hlast hstart hbds

section
variable {s : State} {t : TaskId} {np : BitVec 2} {c : Byte}

/-- Line 9 of R100 as the region's bound. -/
theorem ringFits_le (h : RingFits s np) :
    s.allocPtr.toNat + (argReg s 5).toNat * bdSize np ≤
      s.cfg.ringMemBase.toNat + s.cfg.ringMemSize.toNat := by
  have hfits := mt not_ringFits_iff.mp (not_not.mpr h)
  rw [allocFails, decide_eq_true_iff] at hfits
  omega

theorem ringBytes_freshEntry (hok : SetupOperandsOk s) :
    ringBytes (freshEntry s np c) = (argReg s 5).toNat * bdSize np := by
  obtain ⟨-, -, -, -, hmax, -⟩ := hok
  rw [ringBytes, freshEntry, BitVec.toNat_setWidth, Nat.mod_eq_of_lt (by omega)]

/-- A set up ring ends below 2^32. -/
theorem storage_noWrap (h : RingInv s) (hring : s.rt[t].base ≠ 0#32) :
    s.rt[t].base.toNat + ringBytes s.rt[t] < 2 ^ 32 := by
  obtain ⟨-, -, hregion⟩ := h.config
  have hend := (h.entries t).end_le hring
  have halloc := h.alloc_le
  omega

/-- Memory is allocated above address 0 (R123). -/
theorem allocPtr_ne_zero (h : RingInv s) : s.allocPtr ≠ 0#32 := by
  obtain ⟨hbase, -, -⟩ := h.config
  have hge := h.alloc_ge
  bv_omega

theorem setupRing_freshEntry (h : RingInv s) (hok : SetupOperandsOk s) (hnp : np = 1#2 ∨ np = 2#2)
    (hfits : RingFits s np) (hapart : argReg s 1 ≠ argReg s 2)
    (hout : ∀ x, inStorage (freshEntry s np c) x →
      ¬inBytes (argReg s 1) 4 x ∧ ¬inBytes (argReg s 2) 4 x) :
    SetupRing s (freshEntry s np c) where
  pointers := hnp
  ring := allocPtr_ne_zero h
  live := by
    obtain ⟨-, -, -, -, hmax, hle⟩ := hok
    rw [freshEntry, BitVec.toNat_setWidth]
    omega
  noWrap := by
    obtain ⟨-, -, hregion⟩ := h.config
    have hle := ringFits_le hfits
    rw [ringBytes_freshEntry hok]
    exact hle.trans hregion.le
  lastAligned := hok.2.1
  startAligned := hok.2.2.1
  slotsApart := hapart
  slotsOutside := hout

theorem setupRing_armedEntry (h : RingInv s) (hok : SetupOperandsOk s) (hring : s.rt[t].base ≠ 0#32)
    (hcap : (argReg s 4).toNat ≤ s.rt[t].capBD.toNat) (hapart : argReg s 1 ≠ s.rt[t].startReg)
    (hout : ∀ x, inStorage s.rt[t] x → ¬inBytes (argReg s 1) 4 x ∧ ¬inBytes s.rt[t].startReg 4 x) :
    SetupRing s (armedEntry s.rt[t] (argReg s 4)) where
  pointers := (h.entries t).numPtr_legal hring
  ring := hring
  live := hcap
  noWrap := (storage_noWrap h hring).le
  lastAligned := hok.2.1
  startAligned := (h.entries t).start_aligned hring
  slotsApart := hapart
  slotsOutside := hout

end

/-- Settles O25: both ends of a successful `BDSETUP` arm a `SetupRing`. -/
theorem bdsetupInitialisesTheRing : Obligations.BdsetupInitialisesTheRing := by
  unfold Obligations.BdsetupInitialisesTheRing
  intro t np c s s' hinv hlive hexec hlive' hres e hapart hout
  cases bdsetupEnd_exec hexec hlive with
  | refused =>
    have hsame : invalidArg = noErr := hres
    exact absurd hsame (by decide)
  | fatal => cases hlive'
  | @first u task ok pointers noRing _ fits =>
    obtain rfl := Fin.ext task
    have he : e = freshEntry s np c := Vector.getElem_set_self _
    clear_value e
    subst he
    have hsetup := setupRing_freshEntry hinv ok pointers fits hapart hout
    refine ⟨readWord_setupMem_start, hsetup.readWord_last, fun i hi => ?_, fun _ hlast hstart hslot => ?_⟩
    · obtain ⟨hstatus, hbuf0, hbuf1⟩ := hsetup.holdsBd (m := s.mem.writeWord _ _) hi
      exact ⟨hstatus, hbuf0, hbuf1⟩
    · exact (hsetup.readWord_other ok.1 hlast hstart hslot).trans (Memory.readWord_writeWord_same ..)
  | @later u task ok ring pointers cap =>
    obtain rfl := Fin.ext task
    have he : e = armedEntry s.rt[t] (argReg s 4) := Vector.getElem_set_self _
    clear_value e
    subst he
    have hsetup := setupRing_armedEntry hinv ok ring cap hapart hout
    refine ⟨readWord_setupMem_start, ?_, fun i hi => ?_, fun hnone => absurd hnone ring⟩
    · rw [pointers]
      exact hsetup.readWord_last
    · obtain ⟨hstatus, hbuf0, hbuf1⟩ := hsetup.holdsBd (m := s.mem) hi
      exact ⟨hstatus, hbuf0, fun htwo => hbuf1 (pointers.symm.trans htwo)⟩

/-! ## `BDRESET` -/

/-- The memory `BDRESET` leaves: the live BDs cleared, then the start slot (R115, R116). -/
def resetMem (s : State) (t : TaskId) : Memory :=
  (fillBds s.rt[t] 0#32 s.rt[t].numBD.toNat s.mem).writeWord s.rt[t].startReg (dev s s.rt[t].base)

/-- The state `BDRESET` leaves. -/
def resetRing (s : State) (t : TaskId) : State :=
  { s with
    rt := s.rt.set t { s.rt[t] with inUse := 0#16, wr := 0#16, rd := 0#16 }
    engCur := s.engCur.set t 0#16
    mem := resetMem s t
    res := noErr }

section
variable {s : State} {t : TaskId}

theorem exec_bdreset_outOfRange {n : Nat} (hlive : s.fatal = false) (hn : 16 ≤ n) :
    exec (.bdreset n) s = .next (s.ret invalidArg) := by
  rw [exec, execBdreset, command_withTask_refused hlive hn]

theorem exec_bdreset_noRing (hlive : s.fatal = false) (hbase : s.rt[t].base = 0#32) :
    exec (.bdreset t.val) s = .next (s.ret invalidArg) := by
  rw [exec, execBdreset, command_withTask_handle hlive]
  exact congrArg _ (if_pos hbase)

theorem exec_bdreset_resets (hlive : s.fatal = false) (hbase : s.rt[t].base ≠ 0#32) :
    exec (.bdreset t.val) s = .next (resetRing s t) := by
  rw [exec, execBdreset, command_withTask_handle hlive]
  refine congrArg _ ((if_neg hbase).trans ?_)
  rw [writeStartSlot_eq]
  simp only [State.setRing, Fin.getElem_fin, Vector.getElem_set_self]
  rfl

end

/-- Settles O29: the state left is `resetRing`. -/
theorem bdresetEmptiesTheRing : Obligations.BdresetEmptiesTheRing := by
  unfold Obligations.BdresetEmptiesTheRing
  refine fun s hlive => ⟨fun t ht => exec_bdreset_outOfRange hlive ht, fun t =>
    ⟨exec_bdreset_noRing hlive, fun hbase => ⟨resetMem s t, exec_bdreset_resets hlive hbase,
      Memory.readWord_writeWord_same .., fun x hstart hbds => ?_, fun hptr hwrap hout i hi => ?_⟩⟩⟩
  · rw [resetMem, Memory.readByte_writeWord_other _ _ hstart, readByte_fillBds_outside hbds]
  · have hcleared : HoldsBd (resetMem s t) s.rt[t] i 0#32 := by
      refine (holdsBd_fillBds (m := s.mem) hptr hwrap hi).congr fun x hx => ?_
      rw [filledBytes_eq_bdSize hptr] at hx
      exact Memory.readByte_writeWord_other _ _ (hout x (inBytes_ring_of_bd hwrap hi hx))
    exact ⟨hcleared.status, hcleared.buf0, hcleared.buf1⟩

end Sys2Proof.Proofs
end

section
/-! PROOF. The ring table (`10_state.md` R22, R24, R34, `41_bd_ring.md` R124): what a command leaves of it,
its invariant over every move, and the allocator. -/

namespace Sys2Proof.Proofs

open Sys2Proof.Machine

/-! ## The entries the commands leave -/

/-- The entry `BDASSIGN` leaves (R107). -/
def assignedEntry (e : RingEntry) : RingEntry :=
  { e with wr := cursorNext e.wr e.numBD, inUse := e.inUse + 1#16 }

/-- The entry `BDRELEASE` leaves (R111). -/
def releasedEntry (e : RingEntry) : RingEntry :=
  { e with rd := cursorNext e.rd e.numBD, inUse := e.inUse - 1#16 }

section
variable {c : Config} {a a' : Word} {e : RingEntry}

/-- Storage below `ALLOC_PTR` stays below when it rises. -/
theorem ringEntryOk_mono (h : RingEntryOk c a e) (ha : a.toNat ≤ a'.toNat) : RingEntryOk c a' e :=
  { h with end_le := fun hring => (h.end_le hring).trans ha }

theorem ringEntryOk_unset : RingEntryOk c a RingEntry.unset where
  inUse_le := Nat.le_refl _
  unset_empty _ := rfl
  numPtr_legal hring := absurd rfl hring
  cap_pos hring := absurd rfl hring
  live_le_cap hring := absurd rfl hring
  base_ge hring := absurd rfl hring
  base_aligned hring := absurd rfl hring
  start_aligned hring := absurd rfl hring
  end_le hring := absurd rfl hring
  cursors_live hpos := absurd hpos (Nat.lt_irrefl 0)
  cursors_empty _ := ⟨rfl, rfl⟩

/-- A set up ring with count and cursors 0 is sound where its storage is. -/
theorem ringEntryOk_empty (hring : e.base ≠ 0#32) (hptr : e.numPtr = 1#2 ∨ e.numPtr = 2#2)
    (hcap : 1 ≤ e.capBD.toNat) (hlive : e.numBD.toNat ≤ e.capBD.toNat)
    (hbase : c.ringMemBase.toNat ≤ e.base.toNat) (haligned : e.base.toNat % 4 = 0)
    (hstart : e.startReg.toNat % 4 = 0) (hend : e.base.toNat + ringBytes e ≤ a.toNat)
    (hinUse : e.inUse = 0#16) (hwr : e.wr = 0#16) (hrd : e.rd = 0#16) : RingEntryOk c a e where
  inUse_le := hinUse ▸ Nat.zero_le _
  unset_empty hnone := absurd hnone hring
  numPtr_legal _ := hptr
  cap_pos _ := hcap
  live_le_cap _ := hlive
  base_ge _ := hbase
  base_aligned _ := haligned
  start_aligned _ := hstart
  end_le _ := hend
  cursors_live hpos := by
    rw [hwr, hrd, hinUse]
    exact ⟨hpos, hpos, (Nat.zero_mod _).symm⟩
  cursors_empty _ := ⟨hwr, hrd⟩

/-- R24 (a) keeps a set up ring sound when it is emptied, at any length within its capacity. -/
theorem ringEntryOk_emptied {n : Half} (h : RingEntryOk c a e) (hring : e.base ≠ 0#32)
    (hcap : n.toNat ≤ e.capBD.toNat) :
    RingEntryOk c a { e with numBD := n, inUse := 0#16, wr := 0#16, rd := 0#16 } :=
  ringEntryOk_empty hring (h.numPtr_legal hring) (h.cap_pos hring) hcap (h.base_ge hring)
    (h.base_aligned hring) (h.start_aligned hring) (h.end_le hring) rfl rfl rfl

theorem inUse_lt_of_room (h : RingEntryOk c a e) (hroom : e.inUse ≠ e.numBD) :
    e.inUse.toNat < e.numBD.toNat := by
  have hle := h.inUse_le
  bv_omega

theorem inUse_pos {e : RingEntry} (hsome : e.inUse ≠ 0#16) : 0 < e.inUse.toNat := by
  bv_omega

theorem toNat_inUse_assigned (h : e.inUse.toNat < e.numBD.toNat) :
    (assignedEntry e).inUse.toNat = e.inUse.toNat + 1 := by
  unfold assignedEntry
  bv_omega

theorem toNat_inUse_released (h : 0 < e.inUse.toNat) :
    (releasedEntry e).inUse.toNat = e.inUse.toNat - 1 := by
  unfold releasedEntry
  bv_omega

/-- R24 (d) over a `BDASSIGN`: the write cursor and the count advance together. -/
theorem ringEntryOk_assigned (h : RingEntryOk c a e) (hroom : e.inUse ≠ e.numBD) :
    RingEntryOk c a (assignedEntry e) := by
  have hlt := inUse_lt_of_room h hroom
  have hpos : 0 < e.numBD.toNat := Nat.zero_lt_of_lt hlt
  have hinUse := toNat_inUse_assigned hlt
  obtain ⟨hwr, hrd, hcursor⟩ := h.cursors_live hpos
  have hnext : (assignedEntry e).wr.toNat = (e.wr.toNat + 1) % e.numBD.toNat := cursorNext_toNat _ _ hpos
  refine { h with
    inUse_le := ?_, cursors_live := fun _ => ⟨cursorNext_lt _ _ hpos, hrd, ?_⟩
    cursors_empty := fun hzero => absurd hzero (Nat.ne_of_gt hpos) }
  · rw [hinUse]
    exact hlt
  · rw [hnext, hinUse, hcursor, Nat.mod_add_mod, Nat.add_assoc]
    rfl

/-- R24 (d) over a `BDRELEASE`: the read cursor takes what the count loses. -/
theorem ringEntryOk_released (h : RingEntryOk c a e) (hsome : e.inUse ≠ 0#16) :
    RingEntryOk c a (releasedEntry e) := by
  have hinUse := toNat_inUse_released (inUse_pos hsome)
  have hle := h.inUse_le
  have hpos : 0 < e.numBD.toNat := Nat.lt_of_lt_of_le (inUse_pos hsome) hle
  obtain ⟨hwr, hrd, hcursor⟩ := h.cursors_live hpos
  have hnext : (releasedEntry e).rd.toNat = (e.rd.toNat + 1) % e.numBD.toNat := cursorNext_toNat _ _ hpos
  refine { h with
    inUse_le := ?_, cursors_live := fun _ => ⟨hwr, cursorNext_lt _ _ hpos, ?_⟩
    cursors_empty := fun hzero => absurd hzero (Nat.ne_of_gt hpos) }
  · rw [hinUse]
    exact (Nat.sub_le _ _).trans hle
  · have hcount : e.rd.toNat + 1 + (e.inUse.toNat - 1) = e.rd.toNat + e.inUse.toNat := by
      have := inUse_pos hsome
      omega
    have hnum : (releasedEntry e).numBD = e.numBD := rfl
    rw [hnext, hinUse, hnum, Nat.mod_add_mod, hcount]
    exact hcursor

end

/-! ## How the ring commands end -/

/-- The state a `BDASSIGN` leaves that fills a BD. -/
def assigned (s : State) (t : TaskId) : State :=
  { s with
    rt := s.rt.set t (assignedEntry s.rt[t])
    mem := assignBd s.rt[t] s.rt[t].wr.toNat (argReg s 0) (argReg s 1)
      (assignedStatus (argReg s 2) (argReg s 3)) s.mem
    res := s.rt[t].wr.setWidth 32 }

/-- The state a `BDRELEASE` leaves that releases a BD. -/
def released (s : State) (t : TaskId) : State :=
  { s with
    rt := s.rt.set t (releasedEntry s.rt[t])
    ret1 := s.memRead (bdAddr s.rt[t] s.rt[t].rd.toNat)
    res := s.rt[t].rd.setWidth 32 }

/-- How a `BDASSIGN` ends with `FATAL` = 0; an error is negative in `RES`. -/
inductive AssignEnd (s : State) (n : Nat) : State → Prop where
  | refused {v : Word} (error : v.msb = true) : AssignEnd s n (s.ret v)
  | fills {t : TaskId} (task : n = t.val) (room : s.rt[t].inUse ≠ s.rt[t].numBD) :
      AssignEnd s n (assigned s t)

/-- How a `BDRELEASE` ends with `FATAL` = 0. -/
inductive ReleaseEnd (s : State) (n : Nat) : State → Prop where
  | refused {v : Word} (error : v.msb = true) : ReleaseEnd s n (s.ret v)
  | releases {t : TaskId} (task : n = t.val) (inUse : s.rt[t].inUse ≠ 0#16) :
      ReleaseEnd s n (released s t)

/-- How a `BDRESET` ends with `FATAL` = 0. -/
inductive ResetEnd (s : State) (n : Nat) : State → Prop where
  | refused : ResetEnd s n (s.ret invalidArg)
  | resets {t : TaskId} (task : n = t.val) (ring : s.rt[t].base ≠ 0#32) : ResetEnd s n (resetRing s t)

section
variable {s s' : State} {n : Nat}

theorem assignEnd_exec (h : exec (.bdassign n) s = .next s') (hlive : s.fatal = false) :
    AssignEnd s n s' := by
  have hend : ∀ {a : State}, exec (.bdassign n) s = .next a → AssignEnd s n a → AssignEnd s n s' :=
    fun ha hend => Host.Outcome.next.inj (ha.symm.trans h) ▸ hend
  by_cases hn : n < 16
  swap
  · exact hend (exec_bdassign_refused hlive (Nat.le_of_not_lt hn)) (.refused (by decide))
  lift n to TaskId using hn with t
  by_cases hfull : s.rt[t].inUse = s.rt[t].numBD
  · exact hend (exec_bdassign_full hlive hfull) (.refused (by decide))
  by_cases hsize : bdLenMask.toNat < (argReg s 2).toNat
  · exact hend (exec_bdassign_oversize hlive hfull hsize) (.refused (by decide))
  · exact hend (exec_bdassign_fills hlive hfull (Nat.le_of_not_lt hsize)) (.fills rfl hfull)

theorem releaseEnd_exec (h : exec (.bdrelease n) s = .next s') (hlive : s.fatal = false) :
    ReleaseEnd s n s' := by
  have hend : ∀ {a : State}, exec (.bdrelease n) s = .next a → ReleaseEnd s n a → ReleaseEnd s n s' :=
    fun ha hend => Host.Outcome.next.inj (ha.symm.trans h) ▸ hend
  by_cases hn : n < 16
  swap
  · exact hend (exec_bdrelease_refused hlive (Nat.le_of_not_lt hn)) (.refused (by decide))
  lift n to TaskId using hn with t
  by_cases hempty : s.rt[t].inUse = 0#16
  · exact hend (exec_bdrelease_empty hlive hempty) (.refused (by decide))
  cases hready : bdReady (s.memRead (bdAddr s.rt[t] s.rt[t].rd.toNat)) with
  | true => exact hend (exec_bdrelease_busy hlive hempty hready) (.refused (by decide))
  | false => exact hend (exec_bdrelease_releases hlive hempty hready) (.releases rfl hempty)

theorem resetEnd_exec (h : exec (.bdreset n) s = .next s') (hlive : s.fatal = false) :
    ResetEnd s n s' := by
  have hend : ∀ {a : State}, exec (.bdreset n) s = .next a → ResetEnd s n a → ResetEnd s n s' :=
    fun ha hend => Host.Outcome.next.inj (ha.symm.trans h) ▸ hend
  by_cases hn : n < 16
  swap
  · exact hend (exec_bdreset_outOfRange hlive (Nat.le_of_not_lt hn)) .refused
  lift n to TaskId using hn with t
  by_cases hring : s.rt[t].base = 0#32
  · exact hend (exec_bdreset_noRing hlive hring) .refused
  · exact hend (exec_bdreset_resets hlive hring) (.resets rfl hring)

/-- What a command leaves of the ring table: all of it, all but one entry over the same storage, or all but
the entry of a ring newly allocated. -/
inductive TableEnd (s : State) (i : Instr) : State → Prop where
  | kept {s' : State} (cfg : s'.cfg = s.cfg) (alloc : s'.allocPtr = s.allocPtr) (rt : s'.rt = s.rt)
      (cursors : s'.engCur = s.engCur) : TableEnd s i s'
  | entry {s' : State} (t : TaskId) (e : RingEntry) (cfg : s'.cfg = s.cfg)
      (alloc : s'.allocPtr = s.allocPtr) (rt : s'.rt = s.rt.set t e) (base : e.base = s.rt[t].base)
      (bytes : ringBytes e = ringBytes s.rt[t]) (ok : RingEntryOk s.cfg s.allocPtr e)
      (cursor : s'.engCur[t].toNat < max e.numBD.toNat 1)
      (others : ∀ u : TaskId, u ≠ t → s'.engCur[u] = s.engCur[u]) : TableEnd s i s'
  | allocates {t : TaskId} {np : BitVec 2} {c : Byte} (instr : i = .bdsetup t.val np c)
      (ok : SetupOperandsOk s) (pointers : np = 1#2 ∨ np = 2#2) (noRing : s.rt[t].base = 0#32)
      (hasBds : argReg s 5 ≠ 0#32) (fits : RingFits s np) : TableEnd s i (firstSetup s t np c)

theorem engCur_set_zero_lt (s : State) (t : TaskId) (k : Nat) :
    (s.engCur.set t 0#16)[t].toNat < max k 1 := by
  simp

theorem engCur_set_other (s : State) (t : TaskId) (v : Half) (u : TaskId) (h : u ≠ t) :
    (s.engCur.set t v)[u] = s.engCur[u] :=
  Vector.getElem_set_ne _ _ fun heq => h (Fin.ext heq.symm)

theorem tableEnd_exec {i : Instr} (h : RingInv s) (hexec : exec i s = .next s') (hlive : s.fatal = false) :
    TableEnd s i s' := by
  have hrow := exec_writesOnly hexec
  cases i with
  | bdassign n =>
    cases assignEnd_exec hexec hlive with
    | refused => exact .kept rfl rfl rfl rfl
    | @fills t _ room =>
      exact .entry t _ rfl rfl rfl rfl rfl (ringEntryOk_assigned (h.entries t) room) (h.engine_cursor t)
        fun _ _ => rfl
  | bdrelease n =>
    cases releaseEnd_exec hexec hlive with
    | refused => exact .kept rfl rfl rfl rfl
    | @releases t _ inUse =>
      exact .entry t _ rfl rfl rfl rfl rfl (ringEntryOk_released (h.entries t) inUse) (h.engine_cursor t)
        fun _ _ => rfl
  | bdreset n =>
    cases resetEnd_exec hexec hlive with
    | refused => exact .kept rfl rfl rfl rfl
    | @resets t _ ring =>
      exact .entry t _ rfl rfl rfl rfl rfl
        (ringEntryOk_emptied (h.entries t) ring ((h.entries t).live_le_cap ring))
        (engCur_set_zero_lt s t _) (engCur_set_other s t _)
  | bdsetup n np c =>
    cases bdsetupEnd_exec hexec hlive with
    | refused => exact .kept rfl rfl rfl rfl
    | fatal => exact .kept rfl rfl rfl rfl
    | @first t task ok pointers noRing hasBds fits =>
      exact .allocates (task ▸ rfl) ok pointers noRing hasBds fits
    | @later t _ ok ring pointers cap =>
      refine .entry t _ rfl rfl rfl rfl rfl (ringEntryOk_emptied (h.entries t) ring ?_)
        (engCur_set_zero_lt s t _) (engCur_set_other s t _)
      rw [BitVec.toNat_setWidth]
      exact (Nat.mod_le _ _).trans cap
  | _ =>
    rw [hrow]
    exact .kept rfl rfl rfl rfl

/-! ## The invariant -/

theorem ringInv_of_kept (h : RingInv s) (hcfg : s'.cfg = s.cfg) (halloc : s'.allocPtr = s.allocPtr)
    (hrt : s'.rt = s.rt) (hcursors : s'.engCur = s.engCur) : RingInv s' where
  config := hcfg ▸ h.config
  alloc_ge := by rw [hcfg, halloc]; exact h.alloc_ge
  alloc_le := by rw [hcfg, halloc]; exact h.alloc_le
  alloc_aligned := by rw [halloc]; exact h.alloc_aligned
  entries := by rw [hcfg, halloc, hrt]; exact h.entries
  disjoint := by rw [hrt]; exact h.disjoint
  engine_cursor := by rw [hcursors, hrt]; exact h.engine_cursor

/-- R24 (c) for two rings. -/
def StoragesApart (e e' : RingEntry) : Prop :=
  e.base.toNat + ringBytes e ≤ e'.base.toNat ∨ e'.base.toNat + ringBytes e' ≤ e.base.toNat

/-- One entry may change, and `ALLOC_PTR` rise, where the new entry is sound and apart from the others. -/
theorem ringInv_setEntry (h : RingInv s) {t : TaskId} {e : RingEntry} (hcfg : s'.cfg = s.cfg)
    (hrt : s'.rt = s.rt.set t e) (hge : s.allocPtr.toNat ≤ s'.allocPtr.toNat)
    (hle : s'.allocPtr.toNat ≤ s.cfg.ringMemBase.toNat + s.cfg.ringMemSize.toNat)
    (haligned : s'.allocPtr.toNat % 4 = 0) (hok : RingEntryOk s.cfg s'.allocPtr e)
    (hapart : ∀ u : TaskId, u ≠ t → e.base ≠ 0#32 → s.rt[u].base ≠ 0#32 →
      StoragesApart e s.rt[u])
    (hcursor : s'.engCur[t].toNat < max e.numBD.toNat 1)
    (hothers : ∀ u : TaskId, u ≠ t → s'.engCur[u] = s.engCur[u]) : RingInv s' := by
  have hself : s'.rt[t] = e := by rw [hrt]; exact Vector.getElem_set_self _
  have hother : ∀ u : TaskId, u ≠ t → s'.rt[u] = s.rt[u] := fun u hu => by
    rw [hrt]
    exact Vector.getElem_set_ne _ _ fun heq => hu (Fin.ext heq.symm)
  refine ⟨hcfg ▸ h.config, hcfg ▸ h.alloc_ge.trans hge, hcfg ▸ hle, haligned, fun u => ?_,
    fun u v huv => ?_, fun u => ?_⟩
  · rw [hcfg]
    by_cases hu : u = t
    · rw [hu, hself]
      exact hok
    · rw [hother u hu]
      exact ringEntryOk_mono (h.entries u) hge
  · by_cases hu : u = t
    · subst hu
      rw [hself, hother v huv.symm]
      exact hapart v huv.symm
    · by_cases hv : v = t
      · subst hv
        rw [hself, hother u hu]
        exact fun hring hring' => (hapart u hu hring' hring).symm
      · rw [hother u hu, hother v hv]
        exact h.disjoint u v huv
  · by_cases hu : u = t
    · rw [hu, hself]
      exact hcursor
    · rw [hother u hu, hothers u hu]
      exact h.engine_cursor u

/-- `ALLOC_PTR` after an allocation that fits does not wrap. -/
theorem toNat_allocPtr_firstSetup (h : RingInv s) {t : TaskId} {np : BitVec 2} {c : Byte}
    (hfits : RingFits s np) :
    (firstSetup s t np c).allocPtr.toNat = s.allocPtr.toNat + (argReg s 5).toNat * bdSize np := by
  obtain ⟨-, -, hregion⟩ := h.config
  have hle := ringFits_le hfits
  rw [firstSetup, BitVec.toNat_add, BitVec.toNat_ofNat,
    Nat.mod_eq_of_lt (a := (argReg s 5).toNat * bdSize np) (by omega), Nat.mod_eq_of_lt (by omega)]

/-- A newly allocated ring ends where the allocator stands after it. -/
theorem freshEntry_end (h : RingInv s) {t : TaskId} {np : BitVec 2} {c : Byte} (hok : SetupOperandsOk s)
    (hfits : RingFits s np) : s.allocPtr.toNat + ringBytes (freshEntry s np c) =
      (firstSetup s t np c).allocPtr.toNat := by
  rw [ringBytes_freshEntry hok, toNat_allocPtr_firstSetup h hfits]

/-- R24 (a), (c) for a newly allocated ring. -/
theorem ringEntryOk_fresh (h : RingInv s) {t : TaskId} {np : BitVec 2} {c : Byte} (hok : SetupOperandsOk s)
    (hnp : np = 1#2 ∨ np = 2#2) (hsome : argReg s 5 ≠ 0#32) (hfits : RingFits s np) :
    RingEntryOk s.cfg (firstSetup s t np c).allocPtr (freshEntry s np c) := by
  have hend := freshEntry_end (t := t) (c := c) h hok hfits
  obtain ⟨-, -, hstart, hcount, hmax, hle⟩ := hok
  have hnum : (freshEntry s np c).numBD.toNat = (argReg s 4).toNat := by
    rw [freshEntry, BitVec.toNat_setWidth, Nat.mod_eq_of_lt (by omega)]
  have hcap : (freshEntry s np c).capBD.toNat = (argReg s 5).toNat := by
    rw [freshEntry, BitVec.toNat_setWidth, Nat.mod_eq_of_lt (by omega)]
  refine ringEntryOk_empty (allocPtr_ne_zero h) hnp ?_ (hnum ▸ hcap ▸ hle) h.alloc_ge h.alloc_aligned
    hstart hend.le rfl rfl rfl
  rw [hcap]
  bv_omega

theorem ringInv_firstSetup (h : RingInv s) {t : TaskId} {np : BitVec 2} {c : Byte}
    (hok : SetupOperandsOk s) (hnp : np = 1#2 ∨ np = 2#2) (hsome : argReg s 5 ≠ 0#32)
    (hfits : RingFits s np) : RingInv (firstSetup s t np c) := by
  have halloc := toNat_allocPtr_firstSetup (t := t) (c := c) h hfits
  refine ringInv_setEntry (e := freshEntry s np c) h rfl rfl (halloc ▸ Nat.le_add_right _ _) ?_ ?_
    (ringEntryOk_fresh h hok hnp hsome hfits) (fun u _ _ hring => .inr ((h.entries u).end_le hring))
    (engCur_set_zero_lt s t _) (engCur_set_other s t _)
  · rw [halloc]
    exact ringFits_le hfits
  · have hsize : (argReg s 5).toNat * bdSize np % 4 = 0 := by
      rw [bdSize, Nat.mul_left_comm]
      exact Nat.mul_mod_right 4 _
    have haligned := h.alloc_aligned
    rw [halloc]
    omega

theorem ringInv_tableEnd {i : Instr} (h : RingInv s) (hend : TableEnd s i s') : RingInv s' := by
  cases hend with
  | kept cfg alloc rt cursors => exact ringInv_of_kept h cfg alloc rt cursors
  | entry t e cfg alloc rt base bytes ok cursor others =>
    have hge : s.allocPtr.toNat ≤ s'.allocPtr.toNat := by rw [alloc]
    refine ringInv_setEntry h cfg rt hge (alloc ▸ h.alloc_le) (alloc ▸ h.alloc_aligned) (alloc ▸ ok)
      (fun u hu hring hring' => ?_) cursor others
    rw [StoragesApart, base, bytes]
    exact h.disjoint t u hu.symm (base ▸ hring) hring'
  | allocates _ ok pointers _ hasBds fits => exact ringInv_firstSetup h ok pointers hasBds fits

theorem ringInv_exec {i : Instr} (h : RingInv s) (hexec : exec i s = .next s') : RingInv s' := by
  cases hlive : s.fatal with
  | true =>
    rw [exec_stopped i hlive] at hexec
    exact Host.Outcome.next.inj hexec ▸ h
  | false => exact ringInv_tableEnd h (tableEnd_exec h hexec hlive)

theorem ringInv_engineEnd {e : EngineEvent} (h : RingInv s) (hend : EngineEnd s e s') : RingInv s' := by
  cases hend with
  | @bdDone t status live =>
    have hpos : 0 < s.rt[t].numBD.toNat := by bv_omega
    refine ringInv_setEntry (t := t) (e := s.rt[t]) h rfl (Vector.set_getElem_self _).symm (Nat.le_refl _)
      h.alloc_le h.alloc_aligned (h.entries t) (fun u hu => h.disjoint t u hu.symm) ?_
      (engCur_set_other s t _)
    have hnext := cursorNext_lt s.engCur[t] s.rt[t].numBD hpos
    exact lt_max_of_lt_left ((congrArg BitVec.toNat (Vector.getElem_set_self _)).trans_lt hnext)
  | _ => exact ringInv_of_kept h rfl rfl rfl rfl

theorem ringInv_demuxEnd (h : RingInv s) (hend : DemuxEnd s s') : RingInv s' := by
  cases hend <;> exact ringInv_of_kept h rfl rfl rfl rfl

/-- R32: after a reset no task has a ring. -/
theorem ringInv_resetWith {c : Config} (h : c.wf) : RingInv (State.resetWith c) := by
  have hentry : ∀ t : TaskId, (State.resetWith c).rt[t] = RingEntry.unset := fun t => resetWith_rt c t.isLt
  refine ⟨h, Nat.le_refl _, Nat.le_add_right _ _, h.2.1, fun t => ?_, fun t u _ hring => ?_, fun t => ?_⟩
  · rw [hentry]
    exact ringEntryOk_unset
  · rw [hentry] at hring
    exact absurd rfl hring
  · rw [Fin.getElem_fin, resetWith_engCur c t.isLt]
    exact Nat.lt_of_lt_of_le Nat.zero_lt_one (Nat.le_max_right _ _)

theorem ringInv_moveEnd {m : Input} (h : RingInv s) (hend : MoveEnd s m s') : RingInv s' := by
  cases hend with
  | @command w _ _ _ _ ran =>
    exact ringInv_exec (s := { s with cmd := w }) (ringInv_of_kept h rfl rfl rfl rfl) ran
  | engine moved => exact ringInv_engineEnd h (engineEnd_engineMove moved)
  | demux moved => exact ringInv_demuxEnd h (demuxEnd_demuxStep moved)
  | reset => exact ringInv_of_kept (ringInv_resetWith h.config) rfl rfl rfl rfl
  | stopped | illegal | dropped | arg | prio | storeWord | storeByte =>
    exact ringInv_of_kept h rfl rfl rfl rfl

end

/-- The state after reset has the four invariants of `MachineInv`. -/
theorem machineInv_resetWith {c : Config} (h : c.wf) : MachineInv (State.resetWith c) :=
  ⟨ringInv_resetWith h, interruptInv_resetWith c, registerInv_resetWith c, wf_reset c⟩

/-- Settles O13: `machineInv_resetWith`, whose premise the parameters of `State.reset` meet. -/
theorem resetStateHasTheInvariants : Obligations.ResetStateHasTheInvariants := by
  unfold Obligations.ResetStateHasTheInvariants
  have hvectors : Config.vectors.wf := by decide
  exact ⟨fun c => machineInv_resetWith, machineInv_resetWith hvectors⟩

/-! ## The allocator -/

/-- R124: `ALLOC_PTR` does not fall and a ring keeps its place. -/
structure Grows (s s' : State) : Prop where
  alloc : s.allocPtr.toNat ≤ s'.allocPtr.toNat
  base : ∀ t : TaskId, s.rt[t].base ≠ 0#32 → s'.rt[t].base = s.rt[t].base

section
variable {s s' : State}

theorem grows_of_kept (halloc : s'.allocPtr = s.allocPtr) (hrt : s'.rt = s.rt) : Grows s s' :=
  ⟨by rw [halloc], fun t _ => by rw [hrt]⟩

/-- `i` is a first `BDSETUP`, whose ring got the storage at `ALLOC_PTR` (R103). -/
def Allocates (s : State) (i : Instr) (s' : State) : Prop :=
  ∃ (t : TaskId) (np : BitVec 2) (c : Byte),
    i = .bdsetup t.val np c ∧ s.rt[t].base = 0#32 ∧ s'.rt[t].base = s.allocPtr

theorem grows_setEntry {t : TaskId} {e : RingEntry} (halloc : s.allocPtr.toNat ≤ s'.allocPtr.toNat)
    (hrt : s'.rt = s.rt.set t e) (hbase : s.rt[t].base ≠ 0#32 → e.base = s.rt[t].base) : Grows s s' := by
  refine ⟨halloc, fun u hring => ?_⟩
  rw [hrt]
  by_cases hu : u = t
  · subst hu
    exact (congrArg RingEntry.base (Vector.getElem_set_self _)).trans (hbase hring)
  · exact congrArg RingEntry.base (Vector.getElem_set_ne _ _ fun heq => hu (Fin.ext heq.symm))

theorem TableEnd.grows {i : Instr} (h : RingInv s) (hend : TableEnd s i s') : Grows s s' := by
  cases hend with
  | kept _ alloc rt => exact grows_of_kept alloc rt
  | entry t e _ alloc rt base => exact grows_setEntry (Nat.le_of_eq (by rw [alloc])) rt fun _ => base
  | @allocates t np c _ _ _ noRing _ fits =>
    have halloc := toNat_allocPtr_firstSetup (t := t) (c := c) h fits
    exact grows_setEntry (halloc ▸ Nat.le_add_right _ _) rfl fun hring => absurd noRing hring

theorem TableEnd.allocates_of_moved {i : Instr} (hend : TableEnd s i s')
    (hmoved : s'.allocPtr ≠ s.allocPtr) : Allocates s i s' := by
  cases hend with
  | kept _ alloc => exact absurd alloc hmoved
  | entry _ _ _ alloc => exact absurd alloc hmoved
  | @allocates t np c instr _ _ noRing =>
    exact ⟨t, np, c, instr, noRing, congrArg RingEntry.base (Vector.getElem_set_self _)⟩

theorem EngineEnd.rings_kept {e : EngineEvent} (hend : EngineEnd s e s') :
    s'.allocPtr = s.allocPtr ∧ s'.rt = s.rt := by
  cases hend <;> exact ⟨rfl, rfl⟩

theorem DemuxEnd.rings_kept (hend : DemuxEnd s s') : s'.allocPtr = s.allocPtr ∧ s'.rt = s.rt := by
  cases hend <;> exact ⟨rfl, rfl⟩

/-- A move that is no reset runs a command with `FATAL` = 0, or keeps `ALLOC_PTR` and the ring table. -/
theorem MoveEnd.ranCommand_or_rings_kept {m : Input} (hend : MoveEnd s m s') (hm : m ≠ .reset) :
    (∃ w i, m = .cmd w ∧ decode w = .ok i ∧ s.fatal = false ∧
      exec i { s with cmd := w } = .next s') ∨
      s'.allocPtr = s.allocPtr ∧ s'.rt = s.rt := by
  cases hend with
  | @command w i _ live decoded ran => exact .inl ⟨w, i, rfl, decoded, live, ran⟩
  | engine moved => exact .inr (engineEnd_engineMove moved).rings_kept
  | demux moved => exact .inr (demuxEnd_demuxStep moved).rings_kept
  | reset => exact absurd rfl hm
  | _ => exact .inr ⟨rfl, rfl⟩

theorem MoveEnd.grows {m : Input} (h : RingInv s) (hend : MoveEnd s m s') (hm : m ≠ .reset) :
    Grows s s' := by
  rcases hend.ranCommand_or_rings_kept hm with ⟨w, i, -, -, hlive, hran⟩ | ⟨halloc, hrt⟩
  · have hinv : RingInv { s with cmd := w } := ringInv_of_kept h rfl rfl rfl rfl
    exact { (tableEnd_exec hinv hran hlive).grows hinv with }
  · exact grows_of_kept halloc hrt

theorem MoveEnd.allocates_of_moved {m : Input} (h : RingInv s) (hend : MoveEnd s m s') (hm : m ≠ .reset)
    (hmoved : s'.allocPtr ≠ s.allocPtr) :
    ∃ w i, m = .cmd w ∧ decode w = .ok i ∧ Allocates s i s' := by
  rcases hend.ranCommand_or_rings_kept hm with ⟨w, i, hcmd, hdecode, hlive, hran⟩ | ⟨halloc, -⟩
  · have hinv : RingInv { s with cmd := w } := ringInv_of_kept h rfl rfl rfl rfl
    exact ⟨w, i, hcmd, hdecode, (tableEnd_exec hinv hran hlive).allocates_of_moved hmoved⟩
  · exact absurd halloc hmoved

end

/-- Settles O14: every end of a move keeps the invariant, and all but reset let the rings stand
(`Grows`). -/
theorem stepKeepsTheRingTable : Obligations.StepKeepsTheRingTable := by
  unfold Obligations.StepKeepsTheRingTable
  intro s s' h hstep
  rcases moveEnd_step hstep with ⟨-, rfl⟩ | ⟨m, rest, hinputs, hend⟩
  · exact ⟨h, fun t hchanged => absurd rfl hchanged⟩
  have hinv : RingInv { s with inputs := rest } := ringInv_of_kept h rfl rfl rfl rfl
  refine ⟨ringInv_moveEnd hinv hend, fun t hchanged => ?_⟩
  by_cases hm : m = .reset
  · exact .inr ⟨rest, hm ▸ hinputs⟩
  · exact .inl (by_contra fun hring => hchanged ((hend.grows hinv hm).base t hring))

/-- Settles O26: only a first `BDSETUP` allocates (`MoveEnd.allocates_of_moved`), and nothing falls
(`MoveEnd.grows`). -/
theorem ringStorageIsAllocatedOnce : Obligations.RingStorageIsAllocatedOnce := by
  unfold Obligations.RingStorageIsAllocatedOnce
  intro s s' m rest h hinputs hstep
  rw [step_cons hinputs] at hstep
  have hend := moveEnd_applyInput hstep
  have hinv : RingInv { s with inputs := rest } := ringInv_of_kept h rfl rfl rfl rfl
  refine ⟨?_, fun hm => ⟨(hend.grows hinv hm).alloc, (hend.grows hinv hm).base, fun hmoved => ?_⟩⟩
  · rintro rfl
    exact Host.Outcome.next.inj hstep ▸ rfl
  · obtain ⟨w, i, hcmd, hdecode, t, np, c, rfl, hnone, hbase⟩ := hend.allocates_of_moved hinv hm hmoved
    exact ⟨w, t, np, c, hcmd, hdecode, hnone, hbase⟩

end Sys2Proof.Proofs
end

section
/-! PROOF. The rings as queues (`41_bd_ring.md` R121, R122), their storage, and `BDDRAIN`
(`30_encoding.md` R71). -/

namespace Sys2Proof.Proofs

open Sys2Proof.Machine

/-! ## The queue of an entry -/

section
variable {c : Config} {a : Word} {e : RingEntry}

theorem ringQueue_empty (h : e.inUse = 0#16) : ringQueue e = [] := by
  rw [ringQueue, h]
  rfl

/-- `inUse` is at most `numBD`, so the indices do not meet again. -/
theorem ringQueue_nodup (h : RingEntryOk c a e) : (ringQueue e).Nodup := by
  refine List.Nodup.map_on (fun i hi j hj heq => ?_) List.nodup_range
  have hle := h.inUse_le
  have hcong : i ≡ j [MOD e.numBD.toNat] := Nat.ModEq.add_left_cancel' _ heq
  rw [List.mem_range] at hi hj
  exact hcong.eq_of_lt_of_lt (by omega) (by omega)

theorem ringQueue_lt (h : RingEntryOk c a e) {j : Nat} (hj : j ∈ ringQueue e) : j < e.numBD.toNat := by
  obtain ⟨i, hi, rfl⟩ := List.mem_map.mp hj
  have hle := h.inUse_le
  rw [List.mem_range] at hi
  exact Nat.mod_lt _ (by omega)

/-- R122: `BDASSIGN` appends the index at the write cursor. -/
theorem ringQueue_assigned (h : RingEntryOk c a e) (hroom : e.inUse ≠ e.numBD) :
    ringQueue (assignedEntry e) = ringQueue e ++ [e.wr.toNat] := by
  have hlt := inUse_lt_of_room h hroom
  obtain ⟨-, -, hwr⟩ := h.cursors_live (Nat.zero_lt_of_lt hlt)
  rw [ringQueue, toNat_inUse_assigned hlt, List.range_succ, List.map_append, hwr]
  rfl

/-- R122: `BDRELEASE` takes the first index, the one at the read cursor. -/
theorem ringQueue_released (h : RingEntryOk c a e) (hsome : e.inUse ≠ 0#16) :
    ringQueue e = e.rd.toNat :: ringQueue (releasedEntry e) := by
  have hpos := inUse_pos hsome
  have hnum : 0 < e.numBD.toNat := hpos.trans_le h.inUse_le
  obtain ⟨-, hrd, -⟩ := h.cursors_live hnum
  obtain ⟨k, hk⟩ : ∃ k, e.inUse.toNat = k + 1 := ⟨e.inUse.toNat - 1, by omega⟩
  have hinUse : (releasedEntry e).inUse.toNat = k := by
    rw [toNat_inUse_released hpos, hk, Nat.add_sub_cancel]
  have hnext : (releasedEntry e).rd.toNat = (e.rd.toNat + 1) % e.numBD.toNat := cursorNext_toNat _ _ hnum
  have hsame : (releasedEntry e).numBD = e.numBD := rfl
  rw [ringQueue, ringQueue, hk, hinUse, hnext, hsame, List.range_succ_eq_map, List.map_cons, List.map_map,
    Nat.add_zero, Nat.mod_eq_of_lt hrd]
  refine congrArg _ (List.map_congr_left fun j _ => ?_)
  rw [Function.comp_apply, Nat.mod_add_mod, Nat.succ_eq_add_one, Nat.add_comm j, Nat.add_assoc]

end

/-! ## The entries of a command's task and of the others -/

/-- An index is no error: it reads as itself. -/
theorem toNat_index (i : Half) : (i.setWidth 32).msb = false ∧ (i.setWidth 32).toNat = i.toNat := by
  refine ⟨?_, ?_⟩
  · rw [BitVec.msb_eq_false_iff_two_mul_lt, BitVec.toNat_setWidth]
    omega
  · rw [BitVec.toNat_setWidth]
    omega

section
variable {s s' : State} {i : Instr} {t : TaskId}

/-- `i` is a command of R29 that writes the entry of `t`. -/
def WritesEntry (i : Instr) (t : TaskId) : Prop :=
  i = .bdassign t.val ∨ i = .bdrelease t.val ∨ (∃ np c, i = .bdsetup t.val np c) ∨ i = .bdreset t.val

theorem rt_set_self (s : State) (t : TaskId) (e : RingEntry) : (s.rt.set t e)[t] = e :=
  Vector.getElem_set_self _

theorem rt_set_other (s : State) {t u : TaskId} (e : RingEntry) (h : u ≠ t) :
    (s.rt.set t e)[u] = s.rt[u] :=
  Vector.getElem_set_ne _ _ fun heq => h (Fin.ext heq.symm)

/-- R121: a command leaves the entry of every task alone that it does not name. -/
theorem ring_exec_other (hexec : exec i s = .next s') (hother : ¬WritesEntry i t) : s'.rt[t] = s.rt[t] := by
  cases hlive : s.fatal with
  | true =>
    rw [exec_stopped i hlive] at hexec
    exact Host.Outcome.next.inj hexec ▸ rfl
  | false =>
    have hrow := exec_writesOnly hexec
    cases i with
    | bdassign n =>
      cases assignEnd_exec hexec hlive with
      | refused => rfl
      | fills task => exact rt_set_other s _ fun heq => hother (.inl (by rw [task, heq]))
    | bdrelease n =>
      cases releaseEnd_exec hexec hlive with
      | refused => rfl
      | releases task => exact rt_set_other s _ fun heq => hother (.inr (.inl (by rw [task, heq])))
    | bdsetup n np c =>
      have hnot : ∀ u : TaskId, n = u.val → t ≠ u := fun u task heq =>
        hother (.inr (.inr (.inl ⟨np, c, by rw [task, heq]⟩)))
      cases bdsetupEnd_exec hexec hlive with
      | refused | fatal => rfl
      | first task => exact rt_set_other s _ (hnot _ task)
      | later task => exact rt_set_other s _ (hnot _ task)
    | bdreset n =>
      cases resetEnd_exec hexec hlive with
      | refused => rfl
      | resets task => exact rt_set_other s _ fun heq => hother (.inr (.inr (.inr (by rw [task, heq]))))
    | _ => rw [hrow]

theorem ringQueue_bdassign (h : RingInv s) (hlive : s.fatal = false)
    (hexec : exec (.bdassign t.val) s = .next s') :
    ringQueue s'.rt[t] = if s'.res.msb then ringQueue s.rt[t] else ringQueue s.rt[t] ++ [s'.res.toNat] := by
  cases assignEnd_exec hexec hlive with
  | refused error => exact (if_pos error).symm
  | @fills u task room =>
    obtain rfl := Fin.ext task
    obtain ⟨hmsb, hval⟩ := toNat_index s.rt[t].wr
    rw [assigned, rt_set_self, ringQueue_assigned (h.entries t) room, hmsb, hval]
    rfl

theorem ringQueue_bdrelease (h : RingInv s) (hlive : s.fatal = false)
    (hexec : exec (.bdrelease t.val) s = .next s') :
    ringQueue s.rt[t] = if s'.res.msb then ringQueue s'.rt[t] else s'.res.toNat :: ringQueue s'.rt[t] := by
  cases releaseEnd_exec hexec hlive with
  | refused error => exact (if_pos error).symm
  | @releases u task inUse =>
    obtain rfl := Fin.ext task
    obtain ⟨hmsb, hval⟩ := toNat_index s.rt[t].rd
    rw [released, rt_set_self, ringQueue_released (h.entries t) inUse, hmsb, hval]
    rfl

theorem ringQueue_refused {e : RingEntry} :
    ringQueue e = if invalidArg = 0xFFFFFFFF#32 then [] else ringQueue e :=
  (if_neg (by decide)).symm

theorem ringQueue_succeeded (hres : s'.res = noErr) (hempty : s'.rt[t].inUse = 0#16) :
    ringQueue s'.rt[t] = if s'.res = 0xFFFFFFFF#32 then [] else ringQueue s.rt[t] :=
  (ringQueue_empty hempty).trans (if_pos hres).symm

theorem ringQueue_bdsetup {np : BitVec 2} {c : Byte} (hlive : s.fatal = false)
    (hexec : exec (.bdsetup t.val np c) s = .next s') (hlive' : s'.fatal = false) :
    ringQueue s'.rt[t] = if s'.res = 0xFFFFFFFF#32 then [] else ringQueue s.rt[t] := by
  cases bdsetupEnd_exec hexec hlive with
  | refused => exact ringQueue_refused
  | fatal => cases hlive'
  | @first u task =>
    obtain rfl := Fin.ext task
    exact ringQueue_succeeded rfl (congrArg RingEntry.inUse (rt_set_self s t _))
  | @later u task =>
    obtain rfl := Fin.ext task
    exact ringQueue_succeeded rfl (congrArg RingEntry.inUse (rt_set_self s t _))

theorem ringQueue_bdreset (hlive : s.fatal = false) (hexec : exec (.bdreset t.val) s = .next s') :
    ringQueue s'.rt[t] = if s'.res = 0xFFFFFFFF#32 then [] else ringQueue s.rt[t] := by
  cases resetEnd_exec hexec hlive with
  | refused => exact ringQueue_refused
  | @resets u task =>
    obtain rfl := Fin.ext task
    exact ringQueue_succeeded rfl (congrArg RingEntry.inUse (rt_set_self s t _))

end

/-- Settles O31: one lemma for each command that writes the entry of `t`; the others leave it. -/
theorem ringIsAFifoQueue : Obligations.RingIsAFifoQueue := by
  unfold Obligations.RingIsAFifoQueue
  intro i s s' t h hlive hexec
  refine ⟨ringQueue_nodup (h.entries t), fun _ => ringQueue_lt (h.entries t), ?_, ?_, ?_,
    fun hassign hrelease hsetup hreset => ?_⟩
  · rintro rfl
    exact ringQueue_bdassign h hlive hexec
  · rintro rfl
    exact ringQueue_bdrelease h hlive hexec
  · rintro (⟨np, c, rfl⟩ | rfl) hlive'
    · exact ringQueue_bdsetup hlive hexec hlive'
    · exact ringQueue_bdreset hlive hexec
  · have hother : ¬WritesEntry i t := by
      rintro (hi | hi | ⟨np, c, hi⟩ | hi)
      exacts [hassign hi, hrelease hi, hsetup np c hi, hreset hi]
    rw [ring_exec_other hexec hother]

/-! ## The storage of the rings -/

section
variable {s s' : State} {t u : TaskId} {x : Word}

theorem storages_disjoint (h : RingInv s) (htu : u ≠ t) (hx : inStorage s.rt[u] x) :
    ¬inStorage s.rt[t] x := by
  obtain ⟨hring, hge, hlt⟩ := hx
  rintro ⟨hring', hge', hlt'⟩
  rcases h.disjoint u t htu hring hring' with hapart | hapart <;> omega

/-- The bytes of a live BD are storage of its ring. -/
theorem liveBd_inStorage (h : RingInv s) {i : Nat} (hi : i < s.rt[t].numBD.toNat)
    (hx : inBytes (bdAddr s.rt[t] i) (filledBytes s.rt[t]) x) : inStorage s.rt[t] x := by
  have hring : s.rt[t].base ≠ 0#32 := fun hnone => by
    rw [(h.entries t).unset_empty hnone] at hi
    exact absurd hi (Nat.not_lt_zero i)
  have hcap := (h.entries t).live_le_cap hring
  have hwrap : s.rt[t].base.toNat + ringBytes s.rt[t] ≤ 2 ^ 32 := (storage_noWrap h hring).le
  rw [filledBytes_eq_bdSize ((h.entries t).numPtr_legal hring)] at hx
  exact ⟨hring, (inBytes_iff hwrap).mp (inBytes_ring_of_bd hwrap (hi.trans_le hcap) hx)⟩

/-- The storage of `u` and the entry of `u` are as before. -/
def RingKept (s s' : State) (u : TaskId) : Prop :=
  s'.rt[u] = s.rt[u] ∧ s'.engCur[u] = s.engCur[u] ∧
    ∀ x, inStorage s.rt[u] x → s'.mem.readByte x = s.mem.readByte x

theorem ringKept_assigned (h : RingInv s) (htu : u ≠ t) (hroom : s.rt[t].inUse ≠ s.rt[t].numBD) :
    RingKept s (assigned s t) u := by
  refine ⟨rt_set_other s _ htu, rfl, fun x hx => readByte_assignBd_other fun hbd => ?_⟩
  have hlt := inUse_lt_of_room (h.entries t) hroom
  obtain ⟨hwr, -, -⟩ := (h.entries t).cursors_live (Nat.zero_lt_of_lt hlt)
  exact storages_disjoint h htu hx (liveBd_inStorage h hwr hbd)

theorem ringKept_bdDone (h : RingInv s) (htu : u ≠ t) {status : Word}
    (hmove : engineMove (.bdDone t status) s = some s') : RingKept s s' u := by
  cases engineEnd_engineMove hmove with
  | interrupt | unchanged => exact ⟨rfl, rfl, fun _ _ => rfl⟩
  | enable => exact ⟨rfl, rfl, fun _ _ => rfl⟩
  | bdDone live =>
    refine ⟨rfl, engCur_set_other s t _ u htu,
      fun x hx => Memory.readByte_writeWord_other _ _ fun hword => ?_⟩
    have hcursor : s.engCur[t].toNat < s.rt[t].numBD.toNat := by
      have hlt := h.engine_cursor t
      rw [max_eq_left (by bv_omega)] at hlt
      exact hlt
    have hbytes : inBytes (bdAddr s.rt[t] s.engCur[t].toNat) (filledBytes s.rt[t]) x := by
      refine Nat.lt_of_lt_of_le hword ?_
      unfold filledBytes
      split <;> decide
    exact storages_disjoint h htu hx (liveBd_inStorage h hcursor hbytes)

end

/-- Settles O33: what the three write is storage of `t`, which is apart from the storage of `u`. -/
theorem ringsAreIndependent : Obligations.RingsAreIndependent := by
  unfold Obligations.RingsAreIndependent
  intro s s' t u h htu hmove
  change RingKept s s' u
  have hstopped : ∀ {i : Instr}, s.fatal = true → exec i s = .next s' → RingKept s s' u := by
    intro i hfatal hexec
    rw [exec_stopped i hfatal] at hexec
    obtain rfl := Host.Outcome.next.inj hexec
    exact ⟨rfl, rfl, fun _ _ => rfl⟩
  rcases hmove with hexec | hexec | ⟨status, hmove⟩
  · cases hlive : s.fatal with
    | true => exact hstopped hlive hexec
    | false =>
      cases assignEnd_exec hexec hlive with
      | refused => exact ⟨rfl, rfl, fun _ _ => rfl⟩
      | @fills v task room =>
        obtain rfl := Fin.ext task
        exact ringKept_assigned h htu room
  · cases hlive : s.fatal with
    | true => exact hstopped hlive hexec
    | false =>
      cases releaseEnd_exec hexec hlive with
      | refused => exact ⟨rfl, rfl, fun _ _ => rfl⟩
      | @releases v task =>
        obtain rfl := Fin.ext task
        exact ⟨rt_set_other s _ htu, rfl, fun _ _ => rfl⟩
  · exact ringKept_bdDone h htu hmove

/-! ## `BDDRAIN` -/

/-- A move of the engine or of the demultiplexer, which the host does not make. -/
def OthersMove (m : Input) : Prop := m = .demux ∨ ∃ e, m = .engine e

section
variable {s s' s1 : State} {t : TaskId}

/-- What a move of the others leaves for the host's rings. -/
structure RingsSafe (s s' : State) : Prop where
  inv : RingInv s'
  rt : s'.rt = s.rt
  fatal : s'.fatal = s.fatal

theorem ringsSafe_move {m : Input} (h : RingInv s) (hm : OthersMove m) :
    ∃ s', applyInput m s = .next s' ∧ RingsSafe s s' := by
  have hnext : ∃ s', applyInput m s = .next s' := by
    rcases hm with rfl | ⟨e, rfl⟩ <;> exact ⟨_, rfl⟩
  obtain ⟨s', hnext⟩ := hnext
  refine ⟨s', hnext, ?_⟩
  have hend := moveEnd_applyInput hnext
  have hinv := ringInv_moveEnd h hend
  rcases hm with rfl | ⟨e, rfl⟩
  · cases hend with
    | demux moved =>
      exact ⟨hinv, (demuxEnd_demuxStep moved).rings_kept.2,
        fatal_kept_of_map (demuxStep_fatal s) moved⟩
    | dropped => exact ⟨hinv, rfl, rfl⟩
  · cases hend with
    | engine moved =>
      exact ⟨hinv, (engineEnd_engineMove moved).rings_kept.2,
        fatal_kept_of_map (engineMove_fatal e s) moved⟩
    | dropped => exact ⟨hinv, rfl, rfl⟩

theorem ringsSafe_runMoves {ms : List Input} (h : RingInv s) (hms : ∀ m ∈ ms, OthersMove m) :
    ∃ s', runMoves ms s = .next s' ∧ RingsSafe s s' := by
  induction ms generalizing s with
  | nil => exact ⟨s, rfl, h, rfl, rfl⟩
  | cons m ms ih =>
    obtain ⟨s1, hmove, hsafe⟩ := ringsSafe_move h (hms m List.mem_cons_self)
    obtain ⟨s', hrun, hsafe'⟩ := ih hsafe.inv fun m' hm' => hms m' (List.mem_cons_of_mem m hm')
    refine ⟨s', ?_, hsafe'.inv, hsafe'.rt.trans hsafe.rt, hsafe'.fatal.trans hsafe.fatal⟩
    rw [runMoves_cons, hmove]
    exact hrun

/-- The state in which a poll of `t` runs. -/
def polling (s : State) (t : TaskId) : State := { s with cmd := encode (.bdrelease t.val) }

/-- R60: with `FATAL` = 0 a write of `CMD` runs the command its word spells. -/
theorem writeCmd_eq_exec {w : Word} {i : Instr} (hlive : s.fatal = false) (hdecode : decode w = .ok i) :
    writeCmd w s = exec i { s with cmd := w } := by
  refine (if_neg (Bool.eq_false_iff.mp hlive)).trans ?_
  rw [runWord, hdecode]

/-- A task number fits the field `tid` (R62). -/
theorem task_fits_field (t : TaskId) : decide (t.val < 2 ^ 8) = true :=
  decide_eq_true (by omega)

theorem poll_eq_exec (hlive : s.fatal = false) :
    writeCmd (encode (.bdrelease t.val)) s = exec (.bdrelease t.val) (polling s t) :=
  writeCmd_eq_exec hlive (decode_encode (task_fits_field t))

/-- What a drain of `t` from `s` to `s'` keeps to, whoever moves between its polls (R71, R112 e). -/
structure Drained (t : TaskId) (env : List (List Input)) (s : State) (indices : List Word) (s' : State) :
    Prop where
  ends : s'.res = bdRingEmpty ∨ s'.res = bdBusy
  order : indices.map BitVec.toNat ++ ringQueue s'.rt[t] = ringQueue s.rt[t]
  empty : s'.res = bdRingEmpty → s'.rt[t].inUse = 0#16
  others : ∀ u : TaskId, u ≠ t → s'.rt[u] = s.rt[u]
  cmd : s'.cmd = encode (.bdrelease t.val)
  alone : (∀ others ∈ env, others = []) →
    s' = { s with rt := s.rt.set t s'.rt[t], res := s'.res, ret1 := s'.ret1, cmd := s'.cmd }

/-- The poll that ends a drain. -/
theorem drained_stop {others : List Input} {env : List (List Input)} {v : Word} (hrt : s1.rt = s.rt)
    (hrun : runMoves others s = .next s1) (hends : v = bdRingEmpty ∨ v = bdBusy)
    (hempty : v = bdRingEmpty → s.rt[t].inUse = 0#16) :
    Drained t (others :: env) s [] ((polling s1 t).ret v) where
  ends := hends
  order := congrArg (fun rt : Vector RingEntry 16 => ringQueue rt[t]) hrt
  empty hv := (congrArg (fun rt : Vector RingEntry 16 => rt[t].inUse) hrt).trans (hempty hv)
  others u _ := congrArg (fun rt : Vector RingEntry 16 => rt[u]) hrt
  cmd := rfl
  alone hquiet := by
    rw [hquiet others List.mem_cons_self, runMoves_nil] at hrun
    obtain rfl := Host.Outcome.next.inj hrun
    have hself : s.rt.set t s.rt[t] = s.rt := Vector.set_getElem_self _
    change _ = { s with
      rt := s.rt.set t s.rt[t], res := v, ret1 := s.ret1, cmd := encode (.bdrelease t.val) }
    rw [hself]
    rfl

/-- A poll that releases, before the rest of a drain. -/
theorem drained_release {others : List Input} {env : List (List Input)} {indices : List Word}
    (h : RingInv s) (hrt : s1.rt = s.rt) (hrun : runMoves others s = .next s1)
    (hsome : s.rt[t].inUse ≠ 0#16)
    (hrest : Drained t env (released (polling s1 t) t) indices s') :
    Drained t (others :: env) s ((released (polling s1 t) t).res :: indices) s' where
  ends := hrest.ends
  order := by
    have hentry : (polling s1 t).rt = s.rt := hrt
    have hindex : (released (polling s1 t) t).res.toNat = s.rt[t].rd.toNat := by
      rw [released, (toNat_index _).2, hentry]
    have hqueue : ringQueue (released (polling s1 t) t).rt[t] = ringQueue (releasedEntry s.rt[t]) := by
      rw [released, rt_set_self, hentry]
    rw [List.map_cons, List.cons_append, hrest.order, hindex, hqueue, ringQueue_released (h.entries t) hsome]
  empty := hrest.empty
  others u hu := by
    rw [hrest.others u hu, released, rt_set_other _ _ hu]
    exact congrArg (fun rt : Vector RingEntry 16 => rt[u]) hrt
  cmd := hrest.cmd
  alone hquiet := by
    rw [hquiet others List.mem_cons_self, runMoves_nil] at hrun
    obtain rfl := Host.Outcome.next.inj hrun
    refine (hrest.alone fun o ho => hquiet o (List.mem_cons_of_mem _ ho)).trans ?_
    rw [released, Vector.set_set]
    rfl

/-- Each poll releases one BD or is the last, so `inUse + 1` polls are enough. -/
theorem bdDrain_drained {env : List (List Input)} (h : RingInv s) (hlive : s.fatal = false)
    (hpolls : s.rt[t].inUse.toNat < env.length) (henv : ∀ others ∈ env, ∀ m ∈ others, OthersMove m) :
    ∃ indices s', bdDrain t.val env s = .next (indices, s') ∧ Drained t env s indices s' := by
  induction env generalizing s with
  | nil => exact absurd hpolls (Nat.not_lt_zero _)
  | cons others env ih =>
    obtain ⟨s1, hrun, hinv, hrt, hfatal⟩ := ringsSafe_runMoves h (henv others List.mem_cons_self)
    have hlive1 : s1.fatal = false := hfatal.trans hlive
    have hlive2 : (polling s1 t).fatal = false := hlive1
    have hentry : (polling s1 t).rt[t] = s.rt[t] := congrArg (fun rt : Vector RingEntry 16 => rt[t]) hrt
    have hpoll := poll_eq_exec (t := t) hlive1
    have hstop : ∀ v : Word, v.msb = true → exec (.bdrelease t.val) (polling s1 t) =
        .next ((polling s1 t).ret v) →
        bdDrain t.val (others :: env) s = .next ([], (polling s1 t).ret v) := fun v hv hexec =>
      bdDrain_cons_next_iff.mpr ⟨s1, _, hrun, hpoll.trans hexec, (if_pos (Or.inr hv)).mpr rfl⟩
    by_cases hempty : s.rt[t].inUse = 0#16
    · have hexec := exec_bdrelease_empty hlive2 (hentry ▸ hempty)
      exact ⟨_, _, hstop _ (by decide) hexec, drained_stop hrt hrun (.inl rfl) fun _ => hempty⟩
    have hsome : (polling s1 t).rt[t].inUse ≠ 0#16 := hentry ▸ hempty
    cases hready : bdReady ((polling s1 t).memRead
        (bdAddr (polling s1 t).rt[t] (polling s1 t).rt[t].rd.toNat)) with
    | true =>
      have hexec := exec_bdrelease_busy hlive2 hsome hready
      exact ⟨_, _, hstop _ (by decide) hexec, drained_stop hrt hrun (.inr rfl) fun hv =>
        absurd hv (by decide)⟩
    | false =>
      have hexec : exec (.bdrelease t.val) (polling s1 t) = .next (released (polling s1 t) t) :=
        exec_bdrelease_releases hlive2 hsome hready
      have hinv2 : RingInv (polling s1 t) := ringInv_of_kept hinv rfl rfl rfl rfl
      have hcount : (released (polling s1 t) t).rt[t].inUse.toNat < env.length := by
        rw [released, rt_set_self, hentry, toNat_inUse_released (inUse_pos hempty)]
        rw [List.length_cons] at hpolls
        have := inUse_pos hempty
        omega
      obtain ⟨indices, s', hdrain, hdrained⟩ := ih (ringInv_exec hinv2 hexec) hlive2 hcount
        fun o ho => henv o (List.mem_cons_of_mem _ ho)
      have hgoes : ¬((released (polling s1 t) t).fatal = true ∨
          (released (polling s1 t) t).res.msb = true) := by
        rintro (hstopped | hmsb)
        · exact absurd (hlive2.symm.trans hstopped) (by decide)
        · exact absurd ((toNat_index _).1.symm.trans hmsb) (by decide)
      refine ⟨_, s', bdDrain_cons_next_iff.mpr ⟨s1, _, hrun, hpoll.trans hexec, ?_⟩,
        drained_release h hrt hrun hempty hdrained⟩
      rw [if_neg hgoes]
      exact ⟨_, hdrain, rfl⟩

end

/-- Settles O32: `bdDrain_drained`. -/
theorem bddrainReleasesInOrder : Obligations.BddrainReleasesInOrder := by
  unfold Obligations.BddrainReleasesInOrder
  intro t env s h hlive hpolls henv
  obtain ⟨indices, s', hdrain, hd⟩ := bdDrain_drained h hlive hpolls henv
  exact ⟨indices, s', hdrain, hd.ends, hd.order, hd.empty, hd.others, hd.cmd, hd.alone⟩

end Sys2Proof.Proofs
end

section
/-! PROOF. Two commands of `40_task_control.md` and `42_tcr_config.md`: `TSTART` (R82, R83) and `DRDPATCH`
(R140 to R143). -/

namespace Sys2Proof.Proofs

open Sys2Proof.Machine

/-- A cause of R182 refuses the command at once. -/
theorem exec_invalidArg {s : State} {i : Instr} (hlive : s.fatal = false) (hcause : InvalidArgCause s i)
    (hi : instrOp i ≠ .bdsetup) : exec i s = .next (s.ret invalidArg) := by
  obtain ⟨s', hexec⟩ := exec_completes i s
  rw [hexec]
  cases commandEnd_exec hexec hlive with
  | refused => rfl
  | error noCause | address noCause | value noCause => exact absurd hcause noCause
  | fatal setup =>
    subst setup
    exact absurd rfl hi

/-! ## `TSTART` -/

/-- The bits of a started TCR; under `START_ALWAYS_WRITES_AS` the auto-start fields are always written
(R83 a). -/
theorem startedTcr_getLsbD (always ase : Bool) (ast : Nat) (v : Half) {k : Nat} (hk : k < 16) :
    (startedTcr always ase ast v).getLsbD k =
      if k = 15 then true
      else if (ase = true ∨ always = true) ∧ k = 7 then ase
      else if (ase = true ∨ always = true) ∧ k < 4 then ast.testBit k
      else v.getLsbD k := by
  rw [startedTcr, tcrEnable_getLsbD_ite _ hk]
  refine if_congr Iff.rfl rfl ?_
  by_cases hwrites : ase = true ∨ always = true
  · have hast : k < 4 → (BitVec.ofNat 4 ast).getLsbD k = ast.testBit k := fun hlow => by
      rw [BitVec.getLsbD_ofNat, decide_eq_true hlow, Bool.true_and]
    simp only [hwrites, true_and, Bool.or_eq_true, if_true, tcrWithAutoStart_getLsbD _ _ _ hk]
    refine if_congr Iff.rfl rfl ?_
    split
    · next hlow => exact hast hlow
    · rfl
  · simp only [hwrites, false_and, Bool.or_eq_true, if_false]

/-- Settles O19: `exec_tstart_starts` with the bits of `startedTcr` and of one mask bit; the refusals are
causes of R182. -/
theorem tstartStartsAConfiguredTask : Obligations.TstartStartsAConfiguredTask := by
  unfold Obligations.TstartStartsAConfiguredTask
  refine fun ase ast ie s hlive => ⟨fun t hcfg hast => ?_, fun t ht => ?_, fun t hbad => ?_⟩
  · have htask : SourceNumber t.val := .inl t.isLt
    exact ⟨startedTcr s.cfg.startAlwaysWritesAs ase ast s.tcr[t], (s.setMaskBit t.val ie).imr,
      exec_tstart_starts hlive hast hcfg, fun k hk => startedTcr_getLsbD _ _ _ _ hk,
      fun k hk => imrValue_setMaskBit_getLsbD s ie htask hk⟩
  · exact exec_invalidArg hlive (.inl ht) nofun
  · exact exec_tstart_refused hlive hbad

/-! ## `DRDPATCH` -/

/-- The pass counts at most the listed words. -/
theorem patchPass_count_le (x : BitVec 5) (s : State) : (patchPass x s).1 ≤ (argReg s 1).toNat := by
  obtain ⟨-, hle⟩ := drdWalk_count_le x ((List.range (argReg s 1).toNat).map (drdEntry s)) false 0 s.mem
  rw [List.length_map, List.length_range, Nat.zero_add] at hle
  exact hle

/-- Settles O37: the refusals are causes of R182, and the pass is a walk over the listed words. -/
theorem drdpatchChecksThenPatches : Obligations.DrdpatchChecksThenPatches := by
  unfold Obligations.DrdpatchChecksThenPatches
  refine fun x s hlive => ⟨fun hbad => exec_invalidArg hlive hbad nofun,
    fun hlist hcount hentries => ⟨_, _, exec_drdpatch_patches hlive hlist hcount hentries,
      patchPass_count_le x s, fun y hy => readByte_drdWalk_other _ _ _ _ _ fun a ha => ?_⟩⟩
  obtain ⟨i, hi, rfl⟩ := List.mem_map.mp ha
  exact hy i (List.mem_range.mp hi)

end Sys2Proof.Proofs
end

section
/-! PROOF. The host-side steps of the setup sequence (`42_tcr_config.md` R146 to R156) and the ends of
`TASKSETUP` (`30_encoding.md` R71). -/

namespace Sys2Proof.Proofs

open Sys2Proof.Machine

/-! ## Sizes, strides and pointer counts -/

theorem bytesPerElement_src {a : Int} (h : a ≠ 0) (b d : Int) : bytesPerElement a b d = -|a| := by
  rw [bytesPerElement, if_pos h, Int.natCast_natAbs]

theorem bytesPerElement_dst {b : Int} (h : b ≠ 0) (d : Int) : bytesPerElement 0 b d = -|b| := by
  rw [bytesPerElement, if_neg (not_not.mpr rfl), if_pos h, Int.natCast_natAbs]

theorem numPointers_eq (a b : IncrType) : (numPointers a b).toNat =
    (if a = .fifo then 0 else 1) + (if b = .fifo then 0 else 1) := by
  unfold numPointers
  by_cases ha : a = .fifo <;> by_cases hb : b = .fifo <;> simp [ha, hb]

theorem resolvedStride_of_incrType (p : SideProfile) (q : SideParams) :
    (p.incrType = .fifo → resolvedStride p q = 0) ∧
      (p.incrType = .auto → resolvedStride p q =
        if q.incr < 0 then -(resolvedSize p q : Int) else (resolvedSize p q : Int)) ∧
      (p.incrType = .runtime → resolvedStride p q = q.incr) ∧
      (p.incrType = .constant → resolvedStride p q = p.constStride) := by
  refine ⟨?_, ?_, ?_, ?_⟩
  all_goals
    intro hincr
    rw [resolvedStride, hincr]

/-! ## Runs of host moves -/

section
variable {s s' : State} {t : TaskId} {ms : List Input}

/-- R96 over a run without reset: a configured task stays configured. -/
theorem configured_runMoves (h : runMoves ms s = .next s') (hms : .reset ∉ ms)
    (hcfg : s.configured[t] = true) : s'.configured[t] = true := by
  induction ms generalizing s with
  | nil => exact Host.Outcome.next.inj h ▸ hcfg
  | cons m ms ih =>
    rw [runMoves_cons, andThen_next_iff] at h
    obtain ⟨s1, hmove, hrun⟩ := h
    obtain ⟨hm, hms⟩ := not_or.mp (mt List.mem_cons.mpr hms)
    obtain ⟨-, hkept⟩ := followsTable_applyInput (t := t) hmove
    exact ih hrun hms ((hkept hcfg).resolve_right (Ne.symm hm))

theorem reset_notMem_ringMoves (c : Config) (d : TaskDescriptor) (p : TaskProfile) (q : SetupParams)
    (t : TaskId) : .reset ∉ ringMoves c d p q t := by
  unfold ringMoves
  split <;> simp

theorem reset_notMem_sideMoves (bdBased misalign : Bool) (slots : SideSlots) (p : SideProfile)
    (q : SideParams) : .reset ∉ sideMoves bdBased misalign slots p q := by
  unfold sideMoves
  cases sideAddress bdBased p q <;> cases misalign <;> simp

theorem reset_notMem_step5Stores (d : TaskDescriptor) (p : TaskProfile) : .reset ∉ step5Stores d p := by
  unfold step5Stores
  split_ifs <;> simp

theorem reset_notMem_initiatorMoves (d : TaskDescriptor) (p : TaskProfile) (q : SetupParams) (t : TaskId) :
    .reset ∉ initiatorMoves d p q t := by
  unfold initiatorMoves
  cases p.fixedInit <;> simp

theorem reset_notMem_finishMoves (d : TaskDescriptor) (p : TaskProfile) (q : SetupParams) (t : TaskId) :
    .reset ∉ finishMoves d p q t := by
  have hring : .reset ∉ (if p.bdBased then [Input.cmd (encode (.bdring t.val))] else []) := by
    split <;> simp
  simp [finishMoves, reset_notMem_step5Stores, reset_notMem_initiatorMoves, reset_notMem_sideMoves, hring]

/-! ## The commands of the sequence -/

/-- The policy is encoded modulo 2^16, so a word of `TCFG` decodes whatever the policy. -/
theorem decode_encode_tcfg {g : Nat} (hg : g < 256) (policy : Int) :
    decode (encode (.tcfg g policy)) = .ok (.tcfg g (BitVec.ofInt 16 policy).toInt) := by
  have hword : encode (.tcfg g (BitVec.ofInt 16 policy).toInt) = encode (.tcfg g policy) := by
    simp only [encode, instrOp, instrTid, instrImm, BitVec.ofInt_toInt]
  have htid : g < 2 ^ 8 := hg
  have hlow : -2 ^ 15 ≤ (BitVec.ofInt 16 policy).toInt := BitVec.le_toInt _
  have hhigh : (BitVec.ofInt 16 policy).toInt < 2 ^ 15 := BitVec.toInt_lt
  refine decode_of_encode_eq hword ?_
  simp only [Instr.wellFormed, decide_eq_true hlow, decide_eq_true hhigh, decide_eq_true htid, Bool.and_self]

theorem decode_encode_bdring : decode (encode (.bdring t.val)) = .ok (.bdring t.val) :=
  decode_encode (task_fits_field t)

theorem decode_encode_bdsetup (np : BitVec 2) (c : Byte) :
    decode (encode (.bdsetup t.val np c)) = .ok (.bdsetup t.val np c) :=
  decode_encode (task_fits_field t)

/-- A command that ends with `FATAL` = 0 has run with `FATAL` = 0. -/
theorem exec_of_writeCmd {w : Word} {i : Instr} (h : writeCmd w s = .next s') (hlive' : s'.fatal = false)
    (hdecode : decode w = .ok i) : s.fatal = false ∧ exec i { s with cmd := w } = .next s' := by
  by_cases hfatal : s.fatal = true
  · rw [writeCmd, if_pos hfatal] at h
    obtain rfl := Host.Outcome.next.inj h
    exact absurd (hlive'.symm.trans hfatal) (by decide)
  · have hlive := Bool.eq_false_iff.mpr hfatal
    exact ⟨hlive, (writeCmd_eq_exec hlive hdecode).symm.trans h⟩

theorem toNat_handle (t : TaskId) : (BitVec.ofNat 32 t.val).toNat = t.val := by
  rw [BitVec.toNat_ofNat, Nat.mod_eq_of_lt (by omega)]

theorem res_of_bdring (h : exec (.bdring t.val) s = .next s') (hlive : s.fatal = false) :
    s'.res = s'.rt[t].base := by
  rw [exec_bdring t hlive] at h
  obtain rfl := Host.Outcome.next.inj h
  rfl

/-- The handle `TCFG` returns is a task it configured (R130). -/
theorem handle_of_tcfg {g : Nat} {policy : Int} (h : exec (.tcfg g policy) s = .next s')
    (hlive : s.fatal = false) (hhandle : taskHandle s'.res.toNat = some t) :
    t.val = g % 16 ∧ s'.configured[t] = true := by
  obtain ⟨hrefused, hconfigures⟩ := tcfgConfiguresTheTask g policy s hlive
  rw [taskHandle_eq_some] at hhandle
  by_cases hslot : (argReg s 0).toNat % 4 = 0
  · obtain ⟨v, m, hexec, -⟩ := hconfigures (globalTask g) hslot rfl
    obtain rfl := Host.Outcome.next.inj (hexec.symm.trans h)
    obtain rfl : t = globalTask g := Fin.ext (hhandle.symm.trans (toNat_handle _))
    exact ⟨rfl, Vector.getElem_set_self _⟩
  · obtain rfl := Host.Outcome.next.inj ((hrefused hslot).symm.trans h)
    have hval : invalidArg.toNat = t.val := hhandle
    exact absurd (hval.trans_lt t.isLt) (by decide)

end

/-! ## A setup that is done -/

section
variable {d : TaskDescriptor} {p : TaskProfile} {q out : SetupParams} {s s' : State} {t : TaskId}

theorem setupStage_done {ms : List Input} {rest : State → Host.Outcome (SetupEnd × State) Fault Refusal}
    (h : setupStage ms [] s rest = .next (.done t out, s')) :
    ∃ s1, runMoves ms s = .next s1 ∧ s1.fatal = false ∧ rest s1 = .next (.done t out, s') := by
  obtain ⟨s1, hrun, hrest⟩ := setupStage_next_iff.mp h
  rw [interleave_quiet] at hrun
  split at hrest
  · cases hrest
  · next hlive => exact ⟨s1, hrun, Bool.eq_false_iff.mpr hlive, hrest⟩

/-- The three stretches of a setup that is done. -/
structure SetupDone (d : TaskDescriptor) (p : TaskProfile) (q out : SetupParams) (t : TaskId)
    (s s1 s2 s' : State) : Prop where
  configured : runMoves (configureMoves d p) s = .next s1
  live : s1.fatal = false
  handle : taskHandle s1.res.toNat = some t
  ring : runMoves (ringMoves s.cfg d p q t) s1 = .next s2
  finished : runMoves (finishMoves d p q t) s2 = .next s'
  live' : s'.fatal = false
  outputs : out = setupOutputs p q s'.res

theorem setupDone_of_taskSetup (h : taskSetup d p q [] s = .next (.done t out, s')) :
    ∃ s1 s2, SetupDone d p q out t s s1 s2 s' := by
  obtain ⟨s1, hconfigured, hlive, h⟩ := setupStage_done h
  cases hhandle : taskHandle s1.res.toNat with
  | none =>
    rw [hhandle] at h
    cases h
  | some u =>
    rw [hhandle] at h
    simp only [List.drop_nil] at h
    obtain ⟨s2, hring, -, h⟩ := setupStage_done h
    obtain ⟨s3, hfinished, hlive', h⟩ := setupStage_done h
    cases h
    exact ⟨s1, s2, hconfigured, hlive, hhandle, hring, hfinished, hlive', rfl⟩

/-- Step 3 of R156 configures the task whose handle it returns. -/
theorem SetupDone.configured_handle {s1 s2 : State} (h : SetupDone d p q out t s s1 s2 s')
    (hg : d.globalNumber < 256) : t.val = d.globalNumber % 16 ∧ s1.configured[t] = true := by
  have hrun := h.configured
  rw [configureMoves, runMoves_cons, andThen_next_iff] at hrun
  obtain ⟨s0, -, hrun⟩ := hrun
  rw [runMoves_cons, andThen_next_iff] at hrun
  obtain ⟨s0', hcmd, hrun⟩ := hrun
  obtain rfl := Host.Outcome.next.inj hrun
  obtain ⟨hlive, hexec⟩ := exec_of_writeCmd hcmd h.live (decode_encode_tcfg hg _)
  exact handle_of_tcfg hexec hlive h.handle

/-- A BD-based task asks `BDRING` last, so `RES` holds the ring's base. -/
theorem SetupDone.res_eq_base {s1 s2 : State} (h : SetupDone d p q out t s s1 s2 s')
    (hbd : p.bdBased = true) : s'.res = s'.rt[t].base := by
  have hrun := h.finished
  rw [finishMoves, if_pos hbd, runMoves_append, andThen_next_iff] at hrun
  obtain ⟨s3, -, hrun⟩ := hrun
  rw [runMoves_cons, andThen_next_iff] at hrun
  obtain ⟨s3', hcmd, hrun⟩ := hrun
  obtain rfl := Host.Outcome.next.inj hrun
  obtain ⟨hlive, hexec⟩ := exec_of_writeCmd hcmd h.live' decode_encode_bdring
  exact res_of_bdring hexec hlive

theorem taskSetup_done (hg : d.globalNumber < 256) (h : taskSetup d p q [] s = .next (.done t out, s')) :
    t.val = d.globalNumber % 16 ∧ s'.configured[t] = true ∧ s'.fatal = false ∧
      (0 < p.maxBD →
        (p.src.incrType ≠ .fifo → out.src.start = s'.rt[t].base) ∧
        (p.dst.incrType ≠ .fifo → out.dst.start = s'.rt[t].base)) := by
  obtain ⟨s1, s2, hdone⟩ := setupDone_of_taskSetup h
  obtain ⟨htask, hcfg1⟩ := hdone.configured_handle hg
  have hcfg2 := configured_runMoves hdone.ring (reset_notMem_ringMoves _ _ _ _ _) hcfg1
  have hcfg := configured_runMoves hdone.finished (reset_notMem_finishMoves _ _ _ _) hcfg2
  refine ⟨htask, hcfg, hdone.live', fun hmax => ?_⟩
  have hbd : p.bdBased = true := decide_eq_true hmax
  rw [hdone.outputs, ← hdone.res_eq_base hbd]
  exact ⟨fun hsrc => if_pos ⟨hbd, hsrc⟩, fun hdst => if_pos ⟨hbd, hdst⟩⟩

end

/-! ## A setup that panics -/

/-- The argument registers of a BD-based task's `BDSETUP` (R150). -/
def withSetupArgs (d : TaskDescriptor) (p : TaskProfile) (q : SetupParams) (s : State) : State :=
  writeArg 5 (BitVec.ofNat 32 p.maxBD) (writeArg 4 q.numBD (writeArg 3 q.status
    (writeArg 2 d.startSlot (writeArg 1 d.lastSlot (writeArg 0 d.baseSlot s)))))

section
variable {d : TaskDescriptor} {p : TaskProfile} {q : SetupParams} {s : State} {t : TaskId}

/-- The state in which a BD-based task's `BDSETUP` is written. -/
def ringReady (c : Config) (d : TaskDescriptor) (p : TaskProfile) (q : SetupParams) (s : State) : State :=
  withSetupArgs d p q { s with mem := s.mem.writeByte d.pragmaAddr (pragmaByte c p.pragma) }

/-- Steps 4 and 5 of R156 up to `BDSETUP`, where the pragma byte meets no register. -/
theorem runMoves_ringMoves_of_bdsetup {c : Config} {s' : State} (hbd : p.bdBased = true)
    (hpragma : regCell s d.pragmaAddr = none)
    (hsetup : writeCmd (encode (.bdsetup t.val (numPointers p.src.incrType p.dst.incrType) p.apiConfig))
      (ringReady c d p q s) = .next s') : runMoves (ringMoves c d p q t) s = .next s' := by
  have hstore : applyInput (.storeByte d.pragmaAddr (pragmaByte c p.pragma)) s =
      .next { s with mem := s.mem.writeByte d.pragmaAddr (pragmaByte c p.pragma) } :=
    storeByte_next_iff.mpr ⟨hpragma, rfl⟩
  rw [ringMoves, if_pos hbd, runMoves_cons, hstore]
  exact congrArg (andThen · (runMoves [])) hsetup

/-- A BD-based setup with good counts and slots whose two sides are FIFOs (C9). -/
structure FifoSetup (d : TaskDescriptor) (p : TaskProfile) (q : SetupParams) : Prop where
  task : d.globalNumber < 256
  bdBased : 0 < p.maxBD
  maxBD : p.maxBD ≤ 0xFFFF
  numBD : q.numBD.toNat ≤ p.maxBD
  src : p.src.incrType = .fifo
  dst : p.dst.incrType = .fifo
  enableSlot : d.enableSlot.toNat % 4 = 0
  baseSlot : d.baseSlot.toNat % 4 = 0
  lastSlot : d.lastSlot.toNat % 4 = 0
  startSlot : d.startSlot.toNat % 4 = 0

theorem FifoSetup.operandsOk (h : FifoSetup d p q) (s : State) :
    SetupOperandsOk (withSetupArgs d p q s) := by
  have hmax := h.maxBD
  have hnum : (BitVec.ofNat 32 p.maxBD).toNat = p.maxBD := by
    rw [BitVec.toNat_ofNat, Nat.mod_eq_of_lt (by omega)]
  simp only [SetupOperandsOk, withSetupArgs, argReg, writeArg_args]
  simp [hnum, h.baseSlot, h.lastSlot, h.startSlot, h.numBD, hmax, h.numBD.trans hmax]

/-- C9: two FIFO sides make no pointers, which `BDSETUP` answers with the fatal stop. -/
theorem FifoSetup.runMoves_ringMoves (h : FifoSetup d p q) (hlive : s.fatal = false)
    (hpragma : regCell s d.pragmaAddr = none) (c : Config) :
    ∃ s', runMoves (ringMoves c d p q t) s = .next s' ∧ s'.fatal = true ∧
      s'.fatalReason = badNumPtr ∧ s'.rt = s.rt ∧ s'.allocPtr = s.allocPtr := by
  have hnp : numPointers p.src.incrType p.dst.incrType = 0#2 := by
    rw [h.src, h.dst]
    rfl
  have hok : SetupOperandsOk (ringReady c d p q s) := h.operandsOk _
  have hlive' : (ringReady c d p q s).fatal = false := hlive
  have hsetup := (writeCmd_eq_exec hlive' (decode_encode_bdsetup (t := t) 0#2 p.apiConfig)).trans
    (exec_bdsetup_fatal hlive' ⟨hok, trivial⟩)
  rw [← hnp] at hsetup
  exact ⟨_, runMoves_ringMoves_of_bdsetup (decide_eq_true h.bdBased) hpragma hsetup, rfl,
    if_neg (by rw [hnp]; decide), rfl, rfl⟩

/-- Steps 2, 3 and 6 of R156 on an aligned enable slot. -/
theorem runMoves_configureMoves (hlive : s.fatal = false) (hg : d.globalNumber < 256)
    (hslot : d.enableSlot.toNat % 4 = 0) :
    ∃ s1, runMoves (configureMoves d p) s = .next s1 ∧ s1.fatal = false ∧
      taskHandle s1.res.toNat = some (globalTask d.globalNumber) ∧ s1.rt = s.rt ∧
      s1.allocPtr = s.allocPtr ∧ ∀ a, regCell s1 a = regCell s a := by
  let s0 : State := { writeArg 0 (if p.bdBased then d.enableSlot else 0#32) s with
    cmd := encode (.tcfg d.globalNumber p.policy) }
  have harg : (argReg s0 0).toNat % 4 = 0 := by
    have hself : argReg s0 0 = if p.bdBased then d.enableSlot else 0#32 := Vector.getElem_set_self _
    rw [hself]
    split
    · exact hslot
    · rfl
  obtain ⟨-, hconfigures⟩ :=
    tcfgConfiguresTheTask d.globalNumber (BitVec.ofInt 16 p.policy).toInt s0 hlive
  obtain ⟨v, m, hexec, -⟩ := hconfigures (globalTask d.globalNumber) harg rfl
  have hcmd := (writeCmd_eq_exec (s := writeArg 0 (if p.bdBased then d.enableSlot else 0#32) s) hlive
    (decode_encode_tcfg hg p.policy)).trans hexec
  exact ⟨_, congrArg (andThen · (runMoves [])) hcmd, hlive, taskHandle_eq_some.mpr (toNat_handle _), rfl,
    rfl, fun _ => rfl⟩

theorem FifoSetup.panics (h : FifoSetup d p q) (hlive : s.fatal = false)
    (hpragma : regCell s d.pragmaAddr = none) :
    ∃ s', taskSetup d p q [] s = .next (.panicked, s') ∧ s'.fatal = true ∧
      s'.fatalReason = badNumPtr ∧ s'.rt = s.rt ∧ s'.allocPtr = s.allocPtr := by
  obtain ⟨s1, hrun, hlive1, hhandle, hrt1, halloc1, hreg⟩ :=
    runMoves_configureMoves (p := p) hlive h.task h.enableSlot
  obtain ⟨s', hring, hfatal, hreason, hrt, halloc⟩ := h.runMoves_ringMoves
    (t := globalTask d.globalNumber) hlive1 ((hreg _).trans hpragma) s.cfg
  refine ⟨s', ?_, hfatal, hreason, hrt.trans hrt1, halloc.trans halloc1⟩
  refine setupStage_next_iff.mpr ⟨s1, by rw [interleave_quiet, hrun], ?_⟩
  rw [if_neg (Bool.eq_false_iff.mp hlive1), hhandle]
  refine setupStage_next_iff.mpr ⟨s', by rw [List.drop_nil, interleave_quiet, hring], ?_⟩
  rw [if_pos hfatal]

end

/-- Settles O60: the equations of the host-side functions, `taskSetup_done` and `FifoSetup.panics`. -/
theorem hostSideResolvesTheParameters : Obligations.HostSideResolvesTheParameters := by
  unfold Obligations.HostSideResolvesTheParameters
  refine ⟨by decide, fun st => rfl, fun a b d => ⟨fun ha => bytesPerElement_src ha b d, ?_, ?_⟩,
    resolvedStride_of_incrType, numPointers_eq,
    fun d p q out s s' t hg hdone => taskSetup_done hg hdone,
    fun d p q s hlive hg hpos hmax hcount hsrc hdst hslot hbase hlast hstart hpragma => ?_⟩
  · rintro rfl hb
    exact bytesPerElement_dst hb d
  · rintro rfl rfl
    rfl
  · exact FifoSetup.panics ⟨hg, hpos, hmax, hcount, hsrc, hdst, hslot, hbase, hlast, hstart⟩ hlive hpragma

end Sys2Proof.Proofs
end
